-- ==== Sys2Proof/Word.lean ====
section
/-! DEFINITION. The word of the machine (10_state R21, 00_scope R8): twelve unsigned bits, wrapping. -/

namespace Sys2Proof

/-- The word, "an N-bit unsigned integer, the unit of storage and register width", with N = 12 (R6, R21). -/
abbrev Word := BitVec 12

/-- `wrapN(x) = x mod 2^N`, for any integer x, with the non-negative modulo (R8). -/
def wrapN (x : Int) : Word := BitVec.ofInt 12 x

end Sys2Proof
end

