-- ==== Sys2Proof/Config.lean ====
section
/-! DEFINITION. What is fixed for the machine: the parameters of 00_scope R6, and the free values the spec calls draws. -/

namespace Sys2Proof

/-- The sizes an instance of the machine is built with (R6). -/
structure Params where
  wordBits : Nat
  opcodeBits : Nat
  ramWords : Nat
  callAddr : Nat
  deriving DecidableEq, Repr

namespace Config

/-- The reference instance: N = 12, K = 6, RAM_WORDS = 64, CALL_ADDR = 0o77 (R6; log 20). -/
def reference : Params := { wordBits := 12, opcodeBits := 6, ramWords := 64, callAddr := 0o77 }

/-- RAM_WORDS of the reference instance (R6). -/
def ramWords : Nat := 64

/-- CALL_ADDR, the word that holds the one-deep return address (R6, R57). -/
def callAddr : Nat := 0o77

/-- `STEP_WHEN_HALTED`: whether a forced step runs while halted. The spec leaves it OPEN (R6, D12), so no body is
given and every statement holds for both values (log 9). -/
opaque stepWhenHalted : Bool

/-- The word a power-on or a construction fills in: a register or a word of memory (R40). -/
inductive DrawSlot where
  | a | b | pc | ir | mar
  | mem (i : Nat)
  deriving DecidableEq, Repr

/-- The draw for one slot at the `n`-th draw event: "arbitrary/random bit patterns", a free value (R40, R263; log 6). -/
opaque powerDraw (n : Nat) (slot : DrawSlot) : Word

/-- `KEY_IN` where the host supplies none: a free value, a fresh one at each draw event `n` (R241; log 7). -/
opaque keyDraw (n : Nat) : Word

end Config

end Sys2Proof
end

