-- ==== Sys2Proof/Machine/Parameters.lean ====
section
/-! DEFINITION. The parameter of 00_scope R6 that the machine runs with at either value, and the unit of a step with the host idle. Both
stand in State beside the engine record, set at reset and changed by no step (log 1, log 8). -/

namespace Sys2Proof.Machine

/-- `SUB_CARRY_POLARITY` (R6, R151, C4). -/
inductive Polarity where
  | notBorrow | borrow
  deriving DecidableEq, Repr

/-- The polarity of the machine after reset: the spec's default (R6, D8; log 8). -/
def subCarryPolarity : Polarity := .notBorrow

/-- What one step of the model is while the host is idle: "one `update` tick, which is one machine cycle" (R3, R119), or in the
instruction-level view the ticks of a whole instruction where one starts (R120; log 1). -/
inductive StepUnit where
  | tick | instruction
  deriving DecidableEq, Repr

/-- The unit of a step after reset: the tick, as R3 and R119 say (log 1). -/
def resetStepUnit : StepUnit := .tick

end Sys2Proof.Machine
end

