-- ==== Sys2Proof/Machine/State.lean ====
section
/-! DEFINITION. The state of the machine: the engine record of 10_state R20 as plain data, and beside it the host's pending
actions and last reply (60_exceptions R248; log 2). Also the reasons a step can stop: none is ever raised (R220; log 15). -/

namespace Sys2Proof.Machine

/-- The cycle-type label of the upcoming machine cycle (R36). -/
inductive Label where
  | fetch | decode
  | incPc | memRead | memWrite | alu | jump | input | halt
  deriving DecidableEq, Repr

/-- The nine edge-detected front-panel lines (R33, R228). -/
structure Lines where
  on : Bool
  run : Bool
  reset : Bool
  mStep : Bool
  iStep : Bool
  examine : Bool
  examineNext : Bool
  deposit : Bool
  depositNext : Bool
  deriving DecidableEq, Repr

/-- Every line low (R33: `prev` at construction). -/
def Lines.low : Lines :=
  { on := false, run := false, reset := false, mStep := false, iStep := false,
    examine := false, examineNext := false, deposit := false, depositNext := false }

/-- The input record the host passes to `scanInputs`: the lines and the bank of raw switch bits (R228). -/
structure Inputs where
  lines : Lines
  switches : Nat
  deriving DecidableEq, Repr

/-- What the host may do between ticks (R248). Reading the state needs no action: the fields of `State` are what is read. -/
inductive HostAction where
  /-- Scan the input lines (R229). -/
  | scanInputs (l : Inputs)
  /-- One tick (R117). -/
  | update
  /-- Read a memory word at any integer address (R53). -/
  | getWordAt (addr : Int)
  /-- Write a memory word at any integer address (R53). -/
  | putWordAt (addr value : Int)
  /-- Load memory from octal text (R242). -/
  | importRam (text : List Char)
  /-- Write memory out as octal text (R244). -/
  | exportRam
  /-- Supply the word the next KEY reads (R241). -/
  | supplyKey (value : Word)
  /-- Make a new engine in the construction state (R264). -/
  | construct
  deriving DecidableEq, Repr

/-- The result kinds of `importRAM` (R225). -/
inductive ImportResult where
  | ok | notPoweredOn | running | addressOutOfRange | noValidData
  deriving DecidableEq, Repr

/-- What a host action returned (R248). -/
inductive HostReply where
  | word (w : Word)
  | text (t : List Char)
  | imported (r : ImportResult)
  deriving DecidableEq, Repr

/-- RAM as (address, word) pairs: addresses strictly rising and below `RAM_WORDS`, no word equal to `unlistedWord` (R30; log 4,
log 11). -/
abbrev Mem := List (Nat × Word)

/-- What a word of RAM that is not listed reads as. DESIGN CHOICE, unsafe: R58 leaves it a draw (log 4). -/
def unlistedWord : Word := 0

/-- Every piece of state of the engine (R20), then the model's own fields. -/
structure State where
  /-- The accumulator A (R22). -/
  a : Word
  /-- The operand register B (R23). -/
  b : Word
  /-- The program counter (R25); never reduced modulo `RAM_WORDS`. -/
  pc : Word
  /-- The instruction register (R26). -/
  ir : Word
  /-- The memory address register (R27). -/
  mar : Word
  /-- The carry flag (R28). -/
  carry : Bool
  /-- The zero flag (R29). -/
  zero : Bool
  /-- The RAM, instructions and data (R30). -/
  mem : Mem
  /-- Powered (R31). -/
  on : Bool
  /-- Continuous execution armed (R31). -/
  running : Bool
  /-- Execution stopped by HLT (R31). -/
  halted : Bool
  /-- `m_pending`: one forced machine cycle is requested (R32). -/
  mPending : Bool
  /-- `i_active`: a forced instruction step is in progress (R32). -/
  iActive : Bool
  /-- The lines' levels at the last scan (R33). -/
  prev : Lines
  /-- The switch word latched by the last scan (R33, R240). -/
  sw : Word
  /-- The machine-cycle counter: 0 FETCH, 1 DECODE, c + 2 micro-op c (R34). -/
  mc : Nat
  /-- The instruction-cycle counter, unbounded (R35). -/
  ic : Nat
  /-- The label of the upcoming cycle (R36). -/
  label : Label
  /-- The word the host has supplied for the next KEY, if any (R241; log 7). -/
  keyIn : Option Word
  /-- How many draw events have happened: indexes the free values of Config (log 6). -/
  draws : Nat
  /-- What the host does next, oldest first (R248; log 2). -/
  inbox : List HostAction
  /-- What the last host action returned (R248; log 2). -/
  reply : Option HostReply
  /-- `SUB_CARRY_POLARITY`, a parameter the machine runs with, no part of the engine record (R6, R20; log 8). -/
  polarity : Polarity
  /-- What a step is while the host is idle, a parameter of the model (R3, R119, R120; log 1). -/
  stepUnit : StepUnit
  deriving DecidableEq, Repr

/-- Why the machine stops with a fault: it never does, since "no operation raises an exception" (R220; log 15). Safe: the
spec gives every reachable state a defined transition. -/
inductive Fault
  deriving DecidableEq, Repr

/-- Why the model gives no meaning. -/
inductive Refusal where
  /-- Raised by an arm of `exec` whose instruction has no meaning yet; no arm is left so. Safe: the model stops. -/
  | notModelled (mnemonic : String)
  deriving DecidableEq, Repr

/-- The machine right after reset: constructed, powered on by a scan, reset by a scan (R40, R260, R263, R264; log 5).
A, B, IR, MAR and RAM are draws in the spec; here they hold zero (log 3, log 4). -/
def State.reset : State :=
  { a := 0, b := 0, pc := 0, ir := 0, mar := 0, carry := false, zero := false, mem := [],
    on := true, running := false, halted := false, mPending := false, iActive := false,
    prev := { Lines.low with on := true, reset := true }, sw := 0,
    mc := 0, ic := 0, label := .fetch,
    keyIn := none, draws := 0, inbox := [], reply := none,
    polarity := subCarryPolarity, stepUnit := resetStepUnit }

end Sys2Proof.Machine
end

