-- ==== Sys2Proof/Machine/Flags.lean ====
section
/-! DEFINITION. The ALU functions of 42_alu section 1 (R150 to R154), each as one function from (A, B, carry) to the new A and
the two flags. Arithmetic is done on exact naturals and narrowed at the end, as the rules write it. -/

namespace Sys2Proof.Machine

/-- The operations of the `ALU(f)` micro-op (R107). -/
inductive AluFn where
  | add | sub | and | or | xor | cmp | inc | dec | rlc | rrc | ral | rar
  deriving DecidableEq, Repr

/-- What the ALU writes. -/
structure AluOut where
  a : Word
  carry : Bool
  zero : Bool
  deriving DecidableEq, Repr

/-- A result with its zero flag: zero is true iff the new A is 0 (R29). -/
def aluResult (r : Word) (carry : Bool) : AluOut :=
  { a := r, carry := carry, zero := r == 0 }

/-- `carry = (result >= 2^N)` of an exact sum (R150). -/
def carryOut (r : Nat) : Bool := decide (2 ^ 12 ≤ r)

/-- The carry of the subtract family from the exact result `r = a + (2^N - b)` (R151, R154). -/
def subCarry (pol : Polarity) (r : Nat) : Bool :=
  match pol with
  | .notBorrow => decide (2 ^ 12 ≤ r)
  | .borrow => decide (r < 2 ^ 12)

/-- The exact `a + (2^N - b)`: the complement is not reduced, so `b = 0` gives `2^N` (R151). -/
def subExact (a b : Word) : Nat := a.toNat + (2 ^ 12 - b.toNat)

/-- Addition (R150). -/
def aluAdd (a b : Word) : AluOut :=
  aluResult (BitVec.ofNat 12 (a.toNat + b.toNat)) (carryOut (a.toNat + b.toNat))

/-- Subtraction (R151). -/
def aluSub (pol : Polarity) (a b : Word) : AluOut :=
  aluResult (BitVec.ofNat 12 (subExact a b)) (subCarry pol (subExact a b))

/-- Compare: the flags of the subtraction, with A left as it was (R151, C3). -/
def aluCmp (pol : Polarity) (a b : Word) : AluOut :=
  { aluSub pol a b with a := a }

/-- A logical result: carry is always cleared (R152). -/
def aluLogic (r : Word) : AluOut := aluResult r false

/-- A carry as the least significant bit of a word. -/
def carryLow (c : Bool) : Word := if c then 1 else 0

/-- A carry as the most significant bit of a word. -/
def carryHigh (c : Bool) : Word := if c then 1 <<< 11 else 0

/-- Rotate left circular: the bit out goes to bit 0 and to carry (R153, D10). -/
def aluRlc (a : Word) : AluOut :=
  aluResult ((a <<< 1) ||| carryLow (a.getLsbD 11)) (a.getLsbD 11)

/-- Rotate right circular: the bit out goes to bit 11 and to carry (R153, D10). -/
def aluRrc (a : Word) : AluOut :=
  aluResult ((a >>> 1) ||| carryHigh (a.getLsbD 0)) (a.getLsbD 0)

/-- Rotate left through carry: the old carry goes to bit 0 (R153). -/
def aluRal (a : Word) (c : Bool) : AluOut :=
  aluResult ((a <<< 1) ||| carryLow c) (a.getLsbD 11)

/-- Rotate right through carry: the old carry goes to bit 11 (R153). -/
def aluRar (a : Word) (c : Bool) : AluOut :=
  aluResult ((a >>> 1) ||| carryHigh c) (a.getLsbD 0)

/-- The ALU (R107): INC is ADD of 1 and DEC is SUB of 1 under the same polarity (R154, D9). -/
def aluOut (pol : Polarity) (f : AluFn) (a b : Word) (c : Bool) : AluOut :=
  match f with
  | .add => aluAdd a b
  | .sub => aluSub pol a b
  | .and => aluLogic (a &&& b)
  | .or => aluLogic (a ||| b)
  | .xor => aluLogic (a ^^^ b)
  | .cmp => aluCmp pol a b
  | .inc => aluAdd a 1
  | .dec => aluSub pol a 1
  | .rlc => aluRlc a
  | .rrc => aluRrc a
  | .ral => aluRal a c
  | .rar => aluRar a c

end Sys2Proof.Machine
end

