-- ==== Sys2Proof/Machine/Ops.lean ====
section
/-! DEFINITION. The named operations over memory, registers and status. The CORE has no exception, trap or interrupt (60_exceptions
R220 to R224), so there is no exception entry or return here; what changes control from outside is reset and power (70_reset). -/

namespace Sys2Proof.Machine

/-! ### Memory -/

/-- `wrapR`: any integer address to the word of RAM it names, "wrap first, then access" (R8, R51). -/
def wrapR (addr : Int) : Nat :=
  (((addr % Config.ramWords) + Config.ramWords) % Config.ramWords).toNat

/-- The word at a RAM index (R51). -/
def Mem.read : Mem → Nat → Word
  | [], _ => unlistedWord
  | (j, w) :: rest, i => if j = i then w else Mem.read rest i

/-- The memory with one word changed, in canonical form (R52). -/
def Mem.write : Mem → Nat → Word → Mem
  | [], i, v => if v = unlistedWord then [] else [(i, v)]
  | (j, w) :: rest, i, v =>
    if i < j then (if v = unlistedWord then (j, w) :: rest else (i, v) :: (j, w) :: rest)
    else if i = j then (if v = unlistedWord then rest else (i, v) :: rest)
    else (j, w) :: Mem.write rest i v

/-- Words in canonical form from index `i` on (R242, R263: the whole RAM is filled). -/
def Mem.fill (i : Nat) : List Word → Mem
  | [] => []
  | w :: rest => if w = unlistedWord then Mem.fill (i + 1) rest else (i, w) :: Mem.fill (i + 1) rest

/-- Addresses strictly rising from `lo` and below `RAM_WORDS`, no unlisted word listed. -/
def Mem.wfFrom (lo : Nat) : Mem → Bool
  | [] => true
  | (i, w) :: rest =>
    decide (lo ≤ i) && decide (i < Config.ramWords) && decide (w ≠ unlistedWord) && Mem.wfFrom (i + 1) rest

/-- The canonical form of a memory. -/
def Mem.wf (m : Mem) : Bool := Mem.wfFrom 0 m

/-- `MemRead(addr, 1)` (R8, R51). -/
def State.memRead (s : State) (addr : Int) : Word := s.mem.read (wrapR addr)

/-- `MemWrite(addr, 1, v)` for a word `v` (R8, R52). -/
def State.memWrite (s : State) (addr : Int) (v : Word) : State :=
  { s with mem := s.mem.write (wrapR addr) v }

/-! ### Registers -/

/-- `A <- v` (R22). -/
def State.setA (s : State) (v : Word) : State := { s with a := v }

/-- `B <- v` (R23). -/
def State.setB (s : State) (v : Word) : State := { s with b := v }

/-- `PC <- v` (R25). -/
def State.setPc (s : State) (v : Word) : State := { s with pc := v }

/-- `MAR <- v` (R27). -/
def State.setMar (s : State) (v : Word) : State := { s with mar := v }

/-- FETCH's write of IR: the opcode word, the ignored bits above the opcode (R26, R71, R112). -/
def State.fetched (s : State) (x op : BitVec 6) : State := { s with ir := x ++ op }

/-- The ALU's write of A, carry and zero (R107). -/
def State.setAlu (s : State) (o : AluOut) : State := { s with a := o.a, carry := o.carry, zero := o.zero }

/-- `ALU(f)` on the registers, under the polarity the machine runs with (R107, R151). -/
def State.alu (s : State) (f : AluFn) : State :=
  s.setAlu (aluOut s.polarity f s.a s.b s.carry)

/-! ### Sequencer and status -/

/-- Advance to the cycle `mc`, labelled `l` (R114, R116). -/
def State.goto (s : State) (mc : Nat) (l : Label) : State := { s with mc := mc, label := l }

/-- The end of an instruction cycle (R114, R115). -/
def State.endInstr (s : State) : State := { s with mc := 0, ic := s.ic + 1, label := .fetch }

/-- The HALT micro-op (R110). -/
def State.halt (s : State) : State := { s with halted := true, running := false }

/-- The step flags dropped (R229, R117). -/
def State.cancelSteps (s : State) : State := { s with mPending := false, iActive := false }

/-- INPUT_KEY: A gets the word the host supplied, or else a fresh draw (R109, R241; log 7). -/
def State.inputKey (s : State) : State :=
  match s.keyIn with
  | some w => { s with a := w, keyIn := none }
  | none => { s with a := Config.keyDraw s.draws, draws := s.draws + 1 }

/-- `reset()` (R260). -/
def State.doReset (s : State) : State :=
  { s with pc := 0, halted := false, running := false, mPending := false, iActive := false,
           mc := 0, label := .fetch, ic := 0 }

/-- The five registers and the RAM filled with the draws of event `s.draws` (R40, R263; log 6). -/
def State.drawAll (s : State) : State :=
  { s with a := Config.powerDraw s.draws .a, b := Config.powerDraw s.draws .b,
           pc := Config.powerDraw s.draws .pc, ir := Config.powerDraw s.draws .ir,
           mar := Config.powerDraw s.draws .mar,
           mem := Mem.fill 0 ((List.range Config.ramWords).map fun i => Config.powerDraw s.draws (.mem i)),
           draws := s.draws + 1 }

/-- The flags, status, counters and label at power-on, but for `on` (R263). -/
def State.clearStatus (s : State) : State :=
  { s with carry := false, zero := false, running := false, halted := false, mPending := false,
           iActive := false, mc := 0, label := .fetch, ic := 0 }

/-- `power_on()` (R263). -/
def State.powerOn (s : State) : State := { s.drawAll.clearStatus with on := true }

/-- `power_off()` (R231). -/
def State.powerOff (s : State) : State :=
  { s with on := false, running := false, mPending := false, iActive := false }

/-- Construction: a new engine, powered off (R264). The model's own fields stay: the host and the parameters are no part of the engine
(R20; log 2). -/
def State.construct (s : State) : State :=
  { s.drawAll.clearStatus with on := false, prev := Lines.low, sw := 0 }

end Sys2Proof.Machine
end

