-- ==== Sys2Proof/Machine/Operands.lean ====
section
/-! DEFINITION. The operand forms (30_encoding R72), the jump conditions (40_sequencer R106), and the composed effects that
instructions of one shape share (40_sequencer R120): each is FETCH's write of IR, the effect, the new PC, the end of the cycle. -/

namespace Sys2Proof.Machine

/-- The condition of a `JUMP_IF` (R106). -/
inductive Cond where
  | c | nc | z | nz
  deriving DecidableEq, Repr

/-- Whether the condition holds (R106). -/
def Cond.holds (cond : Cond) (s : State) : Bool :=
  match cond with
  | .c => s.carry
  | .nc => !s.carry
  | .z => s.zero
  | .nz => !s.zero

/-- The operand as an immediate: it is staged in B (42_alu section 3). -/
def State.immOperand (s : State) (imm : Word) : State := s.setB imm

/-- The operand as an address: it is staged in MAR and the word there in B (42_alu section 2). -/
def State.addrOperand (s : State) (addr : Word) : State :=
  (s.setMar addr).setB ((s.setMar addr).memRead addr.toNat)

/-- A one-word instruction that only advances PC (R210, R212). -/
def State.runSkip (s : State) (x op : BitVec 6) : State :=
  ((s.fetched x op).setPc (s.pc + 1)).endInstr

/-- A memory-operand ALU instruction (42_alu section 2). -/
def State.runMemAlu (s : State) (x op : BitVec 6) (f : AluFn) (addr : Word) : State :=
  ((((s.fetched x op).addrOperand addr).alu f).setPc (s.pc + 2)).endInstr

/-- An immediate ALU instruction (42_alu section 3). -/
def State.runImmAlu (s : State) (x op : BitVec 6) (f : AluFn) (imm : Word) : State :=
  ((((s.fetched x op).immOperand imm).alu f).setPc (s.pc + 2)).endInstr

/-- An ALU instruction on A alone (42_alu sections 4 and 5). -/
def State.runAccAlu (s : State) (x op : BitVec 6) (f : AluFn) : State :=
  (((s.fetched x op).alu f).setPc (s.pc + 1)).endInstr

/-- A jump to `target` if taken, else past the operand word (R106, R190 to R194). -/
def State.runJump (s : State) (x op : BitVec 6) (taken : Bool) (target : Word) : State :=
  ((s.fetched x op).setPc (if taken then target else s.pc + 2)).endInstr

end Sys2Proof.Machine
end

