-- ==== Sys2Proof/Machine/Alu.lean ====
section
/-! DEFINITION. The ALU instructions (42_alu R155 to R172): memory-operand, immediate, and on A alone. -/

namespace Sys2Proof.Machine

/-- ADD addr (R155). -/
def execAdd (x : BitVec 6) (addr : Word) (s : State) : Host.Outcome State Fault Refusal :=
  .next (s.runMemAlu x 0o10 .add addr)

/-- SUB addr (R156). -/
def execSub (x : BitVec 6) (addr : Word) (s : State) : Host.Outcome State Fault Refusal :=
  .next (s.runMemAlu x 0o11 .sub addr)

/-- AND addr (R157). -/
def execAnd (x : BitVec 6) (addr : Word) (s : State) : Host.Outcome State Fault Refusal :=
  .next (s.runMemAlu x 0o12 .and addr)

/-- OR addr (R158). -/
def execOr (x : BitVec 6) (addr : Word) (s : State) : Host.Outcome State Fault Refusal :=
  .next (s.runMemAlu x 0o13 .or addr)

/-- XOR addr (R159). -/
def execXor (x : BitVec 6) (addr : Word) (s : State) : Host.Outcome State Fault Refusal :=
  .next (s.runMemAlu x 0o14 .xor addr)

/-- CMP addr (R160). -/
def execCmp (x : BitVec 6) (addr : Word) (s : State) : Host.Outcome State Fault Refusal :=
  .next (s.runMemAlu x 0o15 .cmp addr)

/-- ADI imm (R161). -/
def execAdi (x : BitVec 6) (imm : Word) (s : State) : Host.Outcome State Fault Refusal :=
  .next (s.runImmAlu x 0o20 .add imm)

/-- SUI imm (R162). -/
def execSui (x : BitVec 6) (imm : Word) (s : State) : Host.Outcome State Fault Refusal :=
  .next (s.runImmAlu x 0o21 .sub imm)

/-- ANI imm (R163). -/
def execAni (x : BitVec 6) (imm : Word) (s : State) : Host.Outcome State Fault Refusal :=
  .next (s.runImmAlu x 0o22 .and imm)

/-- ORI imm (R164). -/
def execOri (x : BitVec 6) (imm : Word) (s : State) : Host.Outcome State Fault Refusal :=
  .next (s.runImmAlu x 0o23 .or imm)

/-- XRI imm (R165). -/
def execXri (x : BitVec 6) (imm : Word) (s : State) : Host.Outcome State Fault Refusal :=
  .next (s.runImmAlu x 0o24 .xor imm)

/-- CPI imm (R166). -/
def execCpi (x : BitVec 6) (imm : Word) (s : State) : Host.Outcome State Fault Refusal :=
  .next (s.runImmAlu x 0o25 .cmp imm)

/-- INC (R167). -/
def execInc (x : BitVec 6) (s : State) : Host.Outcome State Fault Refusal :=
  .next (s.runAccAlu x 0o16 .inc)

/-- DEC (R168). -/
def execDec (x : BitVec 6) (s : State) : Host.Outcome State Fault Refusal :=
  .next (s.runAccAlu x 0o17 .dec)

/-- RLC (R169). -/
def execRlc (x : BitVec 6) (s : State) : Host.Outcome State Fault Refusal :=
  .next (s.runAccAlu x 0o30 .rlc)

/-- RRC (R170). -/
def execRrc (x : BitVec 6) (s : State) : Host.Outcome State Fault Refusal :=
  .next (s.runAccAlu x 0o31 .rrc)

/-- RAL (R171). -/
def execRal (x : BitVec 6) (s : State) : Host.Outcome State Fault Refusal :=
  .next (s.runAccAlu x 0o32 .ral)

/-- RAR (R172). -/
def execRar (x : BitVec 6) (s : State) : Host.Outcome State Fault Refusal :=
  .next (s.runAccAlu x 0o33 .rar)

end Sys2Proof.Machine
end

