-- ==== Sys2Proof/Machine/Control.lean ====
section
/-! DEFINITION. The control-transfer instructions (43_control R190 to R196). None writes a flag. -/

namespace Sys2Proof.Machine

/-- JMP (R190): the whole operand word, unreduced. -/
def execJmp (x : BitVec 6) (addr : Word) (s : State) : Host.Outcome State Fault Refusal :=
  .next (s.runJump x 0o40 true addr)

/-- JC (R191). -/
def execJc (x : BitVec 6) (addr : Word) (s : State) : Host.Outcome State Fault Refusal :=
  .next (s.runJump x 0o41 (Cond.c.holds s) addr)

/-- JNC (R192). -/
def execJnc (x : BitVec 6) (addr : Word) (s : State) : Host.Outcome State Fault Refusal :=
  .next (s.runJump x 0o42 (Cond.nc.holds s) addr)

/-- JZ (R193). -/
def execJz (x : BitVec 6) (addr : Word) (s : State) : Host.Outcome State Fault Refusal :=
  .next (s.runJump x 0o43 (Cond.z.holds s) addr)

/-- JNZ (R194). -/
def execJnz (x : BitVec 6) (addr : Word) (s : State) : Host.Outcome State Fault Refusal :=
  .next (s.runJump x 0o44 (Cond.nz.holds s) addr)

/-- CALL (R195): the return address is the word after the operand, unreduced; MAR keeps the target. -/
def execCall (x : BitVec 6) (addr : Word) (s : State) : Host.Outcome State Fault Refusal :=
  .next ((((s.fetched x 0o45).setMar addr).memWrite Config.callAddr (s.pc + 2)).setPc addr).endInstr

/-- RET (R196): the slot is left as it was. -/
def execRet (x : BitVec 6) (s : State) : Host.Outcome State Fault Refusal :=
  .next ((s.fetched x 0o46).setPc (s.memRead Config.callAddr)).endInstr

end Sys2Proof.Machine
end

