-- ==== Sys2Proof/Machine/DataMovement.lean ====
section
/-! DEFINITION. The data-movement instructions (41_data_movement R130 to R134). None writes a flag. -/

namespace Sys2Proof.Machine

/-- LDI (R130). -/
def execLdi (x : BitVec 6) (imm : Word) (s : State) : Host.Outcome State Fault Refusal :=
  .next (((s.fetched x 0o02).setA imm).setPc (s.pc + 2)).endInstr

/-- LDA (R131): MAR keeps the address. -/
def execLda (x : BitVec 6) (addr : Word) (s : State) : Host.Outcome State Fault Refusal :=
  .next ((((s.fetched x 0o03).setMar addr).setA (s.memRead addr.toNat)).setPc (s.pc + 2)).endInstr

/-- STA (R132): MAR keeps the address. -/
def execSta (x : BitVec 6) (addr : Word) (s : State) : Host.Outcome State Fault Refusal :=
  .next ((((s.fetched x 0o04).setMar addr).memWrite addr.toNat s.a).setPc (s.pc + 2)).endInstr

/-- IN (R133): the switch word latched by the last scan. -/
def execIn (x : BitVec 6) (s : State) : Host.Outcome State Fault Refusal :=
  .next (((s.fetched x 0o05).setA s.sw).setPc (s.pc + 1)).endInstr

/-- KEY (R134): the supplied word, or a draw. -/
def execKey (x : BitVec 6) (s : State) : Host.Outcome State Fault Refusal :=
  .next ((s.fetched x 0o06).inputKey.setPc (s.pc + 1)).endInstr

end Sys2Proof.Machine
end

