-- ==== Sys2Proof/Machine/System.lean ====
section
/-! DEFINITION. The system instructions (44_system R210 to R212): NOP, HLT, and the 32 reserved indices of 30_encoding R76. -/

namespace Sys2Proof.Machine

/-- NOP (R210). -/
def execNop (x : BitVec 6) (s : State) : Host.Outcome State Fault Refusal :=
  .next (s.runSkip x 0o00)

/-- HLT (R211): PC advances, then the machine halts. -/
def execHlt (x : BitVec 6) (s : State) : Host.Outcome State Fault Refusal :=
  .next ((s.fetched x 0o01).setPc (s.pc + 1)).halt.endInstr

/-- Reserved index 0o07 (R76, R212). -/
def execNop07 (x : BitVec 6) (s : State) : Host.Outcome State Fault Refusal :=
  .next (s.runSkip x 0o07)

/-- Reserved index 0o26 (R76, R212). -/
def execNop26 (x : BitVec 6) (s : State) : Host.Outcome State Fault Refusal :=
  .next (s.runSkip x 0o26)

/-- Reserved index 0o27 (R76, R212). -/
def execNop27 (x : BitVec 6) (s : State) : Host.Outcome State Fault Refusal :=
  .next (s.runSkip x 0o27)

/-- Reserved index 0o34 (R76, R212). -/
def execNop34 (x : BitVec 6) (s : State) : Host.Outcome State Fault Refusal :=
  .next (s.runSkip x 0o34)

/-- Reserved index 0o35 (R76, R212). -/
def execNop35 (x : BitVec 6) (s : State) : Host.Outcome State Fault Refusal :=
  .next (s.runSkip x 0o35)

/-- Reserved index 0o36 (R76, R212). -/
def execNop36 (x : BitVec 6) (s : State) : Host.Outcome State Fault Refusal :=
  .next (s.runSkip x 0o36)

/-- Reserved index 0o37 (R76, R212). -/
def execNop37 (x : BitVec 6) (s : State) : Host.Outcome State Fault Refusal :=
  .next (s.runSkip x 0o37)

/-- Reserved index 0o47 (R76, R212). -/
def execNop47 (x : BitVec 6) (s : State) : Host.Outcome State Fault Refusal :=
  .next (s.runSkip x 0o47)

/-- Reserved index 0o50 (R76, R212). -/
def execNop50 (x : BitVec 6) (s : State) : Host.Outcome State Fault Refusal :=
  .next (s.runSkip x 0o50)

/-- Reserved index 0o51 (R76, R212). -/
def execNop51 (x : BitVec 6) (s : State) : Host.Outcome State Fault Refusal :=
  .next (s.runSkip x 0o51)

/-- Reserved index 0o52 (R76, R212). -/
def execNop52 (x : BitVec 6) (s : State) : Host.Outcome State Fault Refusal :=
  .next (s.runSkip x 0o52)

/-- Reserved index 0o53 (R76, R212). -/
def execNop53 (x : BitVec 6) (s : State) : Host.Outcome State Fault Refusal :=
  .next (s.runSkip x 0o53)

/-- Reserved index 0o54 (R76, R212). -/
def execNop54 (x : BitVec 6) (s : State) : Host.Outcome State Fault Refusal :=
  .next (s.runSkip x 0o54)

/-- Reserved index 0o55 (R76, R212). -/
def execNop55 (x : BitVec 6) (s : State) : Host.Outcome State Fault Refusal :=
  .next (s.runSkip x 0o55)

/-- Reserved index 0o56 (R76, R212). -/
def execNop56 (x : BitVec 6) (s : State) : Host.Outcome State Fault Refusal :=
  .next (s.runSkip x 0o56)

/-- Reserved index 0o57 (R76, R212). -/
def execNop57 (x : BitVec 6) (s : State) : Host.Outcome State Fault Refusal :=
  .next (s.runSkip x 0o57)

/-- Reserved index 0o60 (R76, R212). -/
def execNop60 (x : BitVec 6) (s : State) : Host.Outcome State Fault Refusal :=
  .next (s.runSkip x 0o60)

/-- Reserved index 0o61 (R76, R212). -/
def execNop61 (x : BitVec 6) (s : State) : Host.Outcome State Fault Refusal :=
  .next (s.runSkip x 0o61)

/-- Reserved index 0o62 (R76, R212). -/
def execNop62 (x : BitVec 6) (s : State) : Host.Outcome State Fault Refusal :=
  .next (s.runSkip x 0o62)

/-- Reserved index 0o63 (R76, R212). -/
def execNop63 (x : BitVec 6) (s : State) : Host.Outcome State Fault Refusal :=
  .next (s.runSkip x 0o63)

/-- Reserved index 0o64 (R76, R212). -/
def execNop64 (x : BitVec 6) (s : State) : Host.Outcome State Fault Refusal :=
  .next (s.runSkip x 0o64)

/-- Reserved index 0o65 (R76, R212). -/
def execNop65 (x : BitVec 6) (s : State) : Host.Outcome State Fault Refusal :=
  .next (s.runSkip x 0o65)

/-- Reserved index 0o66 (R76, R212). -/
def execNop66 (x : BitVec 6) (s : State) : Host.Outcome State Fault Refusal :=
  .next (s.runSkip x 0o66)

/-- Reserved index 0o67 (R76, R212). -/
def execNop67 (x : BitVec 6) (s : State) : Host.Outcome State Fault Refusal :=
  .next (s.runSkip x 0o67)

/-- Reserved index 0o70 (R76, R212). -/
def execNop70 (x : BitVec 6) (s : State) : Host.Outcome State Fault Refusal :=
  .next (s.runSkip x 0o70)

/-- Reserved index 0o71 (R76, R212). -/
def execNop71 (x : BitVec 6) (s : State) : Host.Outcome State Fault Refusal :=
  .next (s.runSkip x 0o71)

/-- Reserved index 0o72 (R76, R212). -/
def execNop72 (x : BitVec 6) (s : State) : Host.Outcome State Fault Refusal :=
  .next (s.runSkip x 0o72)

/-- Reserved index 0o73 (R76, R212). -/
def execNop73 (x : BitVec 6) (s : State) : Host.Outcome State Fault Refusal :=
  .next (s.runSkip x 0o73)

/-- Reserved index 0o74 (R76, R212). -/
def execNop74 (x : BitVec 6) (s : State) : Host.Outcome State Fault Refusal :=
  .next (s.runSkip x 0o74)

/-- Reserved index 0o75 (R76, R212). -/
def execNop75 (x : BitVec 6) (s : State) : Host.Outcome State Fault Refusal :=
  .next (s.runSkip x 0o75)

/-- Reserved index 0o76 (R76, R212). -/
def execNop76 (x : BitVec 6) (s : State) : Host.Outcome State Fault Refusal :=
  .next (s.runSkip x 0o76)

/-- Reserved index 0o77 (R76, R212). -/
def execNop77 (x : BitVec 6) (s : State) : Host.Outcome State Fault Refusal :=
  .next (s.runSkip x 0o77)

end Sys2Proof.Machine
end

