-- ==== Sys2Proof/Syntax.lean ====
section
/-! DEFINITION. The instructions: one constructor per row of spec/opcode_table.json (30_encoding R75), in its order.
`x` is the opcode word's ignored field `w[11:6]`, which decode does not read and IR keeps (R71, R77; log 12).
`imm` and `addr` are the operand word of a Format O instruction, used whole (R72). Reserved rows have the mnemonic NOP and
are named by their octal index (R76). -/

namespace Sys2Proof

/-- The 64 entries of the opcode map (R75). -/
inductive Instr where
  /-- 0o00, NOP, no operation (R210). -/
  | nop (x : BitVec 6)
  /-- 0o01, HLT, halt (R211). -/
  | hlt (x : BitVec 6)
  /-- 0o02, LDI, load immediate (R130). -/
  | ldi (x : BitVec 6) (imm : Word)
  /-- 0o03, LDA, load accumulator from memory (R131). -/
  | lda (x : BitVec 6) (addr : Word)
  /-- 0o04, STA, store accumulator to memory (R132). -/
  | sta (x : BitVec 6) (addr : Word)
  /-- 0o05, IN, input the switch bank into A (R133). -/
  | inp (x : BitVec 6)
  /-- 0o06, KEY, input the key word into A (R134). -/
  | key (x : BitVec 6)
  /-- 0o07, reserved (R76, R212). -/
  | nop07 (x : BitVec 6)
  /-- 0o10, ADD, add a memory word to A (R155). -/
  | add (x : BitVec 6) (addr : Word)
  /-- 0o11, SUB, subtract a memory word from A (R156). -/
  | sub (x : BitVec 6) (addr : Word)
  /-- 0o12, AND with a memory word (R157). -/
  | and (x : BitVec 6) (addr : Word)
  /-- 0o13, OR with a memory word (R158). -/
  | or (x : BitVec 6) (addr : Word)
  /-- 0o14, XOR with a memory word (R159). -/
  | xor (x : BitVec 6) (addr : Word)
  /-- 0o15, CMP, compare A with a memory word (R160). -/
  | cmp (x : BitVec 6) (addr : Word)
  /-- 0o16, INC, increment A (R167). -/
  | inc (x : BitVec 6)
  /-- 0o17, DEC, decrement A (R168). -/
  | dec (x : BitVec 6)
  /-- 0o20, ADI, add an immediate to A (R161). -/
  | adi (x : BitVec 6) (imm : Word)
  /-- 0o21, SUI, subtract an immediate from A (R162). -/
  | sui (x : BitVec 6) (imm : Word)
  /-- 0o22, ANI, AND an immediate into A (R163). -/
  | ani (x : BitVec 6) (imm : Word)
  /-- 0o23, ORI, OR an immediate into A (R164). -/
  | ori (x : BitVec 6) (imm : Word)
  /-- 0o24, XRI, exclusive-OR an immediate into A (R165). -/
  | xri (x : BitVec 6) (imm : Word)
  /-- 0o25, CPI, compare A with an immediate (R166). -/
  | cpi (x : BitVec 6) (imm : Word)
  /-- 0o26, reserved (R76, R212). -/
  | nop26 (x : BitVec 6)
  /-- 0o27, reserved (R76, R212). -/
  | nop27 (x : BitVec 6)
  /-- 0o30, RLC, rotate A left, circular (R169). -/
  | rlc (x : BitVec 6)
  /-- 0o31, RRC, rotate A right, circular (R170). -/
  | rrc (x : BitVec 6)
  /-- 0o32, RAL, rotate A left through carry (R171). -/
  | ral (x : BitVec 6)
  /-- 0o33, RAR, rotate A right through carry (R172). -/
  | rar (x : BitVec 6)
  /-- 0o34, reserved (R76, R212). -/
  | nop34 (x : BitVec 6)
  /-- 0o35, reserved (R76, R212). -/
  | nop35 (x : BitVec 6)
  /-- 0o36, reserved (R76, R212). -/
  | nop36 (x : BitVec 6)
  /-- 0o37, reserved (R76, R212). -/
  | nop37 (x : BitVec 6)
  /-- 0o40, JMP, unconditional jump (R190). -/
  | jmp (x : BitVec 6) (addr : Word)
  /-- 0o41, JC, jump if carry (R191). -/
  | jc (x : BitVec 6) (addr : Word)
  /-- 0o42, JNC, jump if not carry (R192). -/
  | jnc (x : BitVec 6) (addr : Word)
  /-- 0o43, JZ, jump if zero (R193). -/
  | jz (x : BitVec 6) (addr : Word)
  /-- 0o44, JNZ, jump if not zero (R194). -/
  | jnz (x : BitVec 6) (addr : Word)
  /-- 0o45, CALL, call through the one-deep slot (R195). -/
  | call (x : BitVec 6) (addr : Word)
  /-- 0o46, RET, return from a subroutine (R196). -/
  | ret (x : BitVec 6)
  /-- 0o47, reserved (R76, R212). -/
  | nop47 (x : BitVec 6)
  /-- 0o50, reserved (R76, R212). -/
  | nop50 (x : BitVec 6)
  /-- 0o51, reserved (R76, R212). -/
  | nop51 (x : BitVec 6)
  /-- 0o52, reserved (R76, R212). -/
  | nop52 (x : BitVec 6)
  /-- 0o53, reserved (R76, R212). -/
  | nop53 (x : BitVec 6)
  /-- 0o54, reserved (R76, R212). -/
  | nop54 (x : BitVec 6)
  /-- 0o55, reserved (R76, R212). -/
  | nop55 (x : BitVec 6)
  /-- 0o56, reserved (R76, R212). -/
  | nop56 (x : BitVec 6)
  /-- 0o57, reserved (R76, R212). -/
  | nop57 (x : BitVec 6)
  /-- 0o60, reserved (R76, R212). -/
  | nop60 (x : BitVec 6)
  /-- 0o61, reserved (R76, R212). -/
  | nop61 (x : BitVec 6)
  /-- 0o62, reserved (R76, R212). -/
  | nop62 (x : BitVec 6)
  /-- 0o63, reserved (R76, R212). -/
  | nop63 (x : BitVec 6)
  /-- 0o64, reserved (R76, R212). -/
  | nop64 (x : BitVec 6)
  /-- 0o65, reserved (R76, R212). -/
  | nop65 (x : BitVec 6)
  /-- 0o66, reserved (R76, R212). -/
  | nop66 (x : BitVec 6)
  /-- 0o67, reserved (R76, R212). -/
  | nop67 (x : BitVec 6)
  /-- 0o70, reserved (R76, R212). -/
  | nop70 (x : BitVec 6)
  /-- 0o71, reserved (R76, R212). -/
  | nop71 (x : BitVec 6)
  /-- 0o72, reserved (R76, R212). -/
  | nop72 (x : BitVec 6)
  /-- 0o73, reserved (R76, R212). -/
  | nop73 (x : BitVec 6)
  /-- 0o74, reserved (R76, R212). -/
  | nop74 (x : BitVec 6)
  /-- 0o75, reserved (R76, R212). -/
  | nop75 (x : BitVec 6)
  /-- 0o76, reserved (R76, R212). -/
  | nop76 (x : BitVec 6)
  /-- 0o77, reserved (R76, R212). -/
  | nop77 (x : BitVec 6)
  deriving DecidableEq, Repr

end Sys2Proof
end

