-- ==== Sys2Proof/Machine/Dispatch.lean ====
section
/-! DEFINITION. The dispatch: one arm per row of the opcode table (30_encoding R75). -/

namespace Sys2Proof.Machine

def exec (i : Instr) (s : State) : Host.Outcome State Fault Refusal :=
  match i with
  | .nop x => Sys2Proof.Machine.execNop x s
  | .hlt x => Sys2Proof.Machine.execHlt x s
  | .ldi x imm => Sys2Proof.Machine.execLdi x imm s
  | .lda x addr => Sys2Proof.Machine.execLda x addr s
  | .sta x addr => Sys2Proof.Machine.execSta x addr s
  | .inp x => Sys2Proof.Machine.execIn x s
  | .key x => Sys2Proof.Machine.execKey x s
  | .nop07 x => Sys2Proof.Machine.execNop07 x s
  | .add x addr => Sys2Proof.Machine.execAdd x addr s
  | .sub x addr => Sys2Proof.Machine.execSub x addr s
  | .and x addr => Sys2Proof.Machine.execAnd x addr s
  | .or x addr => Sys2Proof.Machine.execOr x addr s
  | .xor x addr => Sys2Proof.Machine.execXor x addr s
  | .cmp x addr => Sys2Proof.Machine.execCmp x addr s
  | .inc x => Sys2Proof.Machine.execInc x s
  | .dec x => Sys2Proof.Machine.execDec x s
  | .adi x imm => Sys2Proof.Machine.execAdi x imm s
  | .sui x imm => Sys2Proof.Machine.execSui x imm s
  | .ani x imm => Sys2Proof.Machine.execAni x imm s
  | .ori x imm => Sys2Proof.Machine.execOri x imm s
  | .xri x imm => Sys2Proof.Machine.execXri x imm s
  | .cpi x imm => Sys2Proof.Machine.execCpi x imm s
  | .nop26 x => Sys2Proof.Machine.execNop26 x s
  | .nop27 x => Sys2Proof.Machine.execNop27 x s
  | .rlc x => Sys2Proof.Machine.execRlc x s
  | .rrc x => Sys2Proof.Machine.execRrc x s
  | .ral x => Sys2Proof.Machine.execRal x s
  | .rar x => Sys2Proof.Machine.execRar x s
  | .nop34 x => Sys2Proof.Machine.execNop34 x s
  | .nop35 x => Sys2Proof.Machine.execNop35 x s
  | .nop36 x => Sys2Proof.Machine.execNop36 x s
  | .nop37 x => Sys2Proof.Machine.execNop37 x s
  | .jmp x addr => Sys2Proof.Machine.execJmp x addr s
  | .jc x addr => Sys2Proof.Machine.execJc x addr s
  | .jnc x addr => Sys2Proof.Machine.execJnc x addr s
  | .jz x addr => Sys2Proof.Machine.execJz x addr s
  | .jnz x addr => Sys2Proof.Machine.execJnz x addr s
  | .call x addr => Sys2Proof.Machine.execCall x addr s
  | .ret x => Sys2Proof.Machine.execRet x s
  | .nop47 x => Sys2Proof.Machine.execNop47 x s
  | .nop50 x => Sys2Proof.Machine.execNop50 x s
  | .nop51 x => Sys2Proof.Machine.execNop51 x s
  | .nop52 x => Sys2Proof.Machine.execNop52 x s
  | .nop53 x => Sys2Proof.Machine.execNop53 x s
  | .nop54 x => Sys2Proof.Machine.execNop54 x s
  | .nop55 x => Sys2Proof.Machine.execNop55 x s
  | .nop56 x => Sys2Proof.Machine.execNop56 x s
  | .nop57 x => Sys2Proof.Machine.execNop57 x s
  | .nop60 x => Sys2Proof.Machine.execNop60 x s
  | .nop61 x => Sys2Proof.Machine.execNop61 x s
  | .nop62 x => Sys2Proof.Machine.execNop62 x s
  | .nop63 x => Sys2Proof.Machine.execNop63 x s
  | .nop64 x => Sys2Proof.Machine.execNop64 x s
  | .nop65 x => Sys2Proof.Machine.execNop65 x s
  | .nop66 x => Sys2Proof.Machine.execNop66 x s
  | .nop67 x => Sys2Proof.Machine.execNop67 x s
  | .nop70 x => Sys2Proof.Machine.execNop70 x s
  | .nop71 x => Sys2Proof.Machine.execNop71 x s
  | .nop72 x => Sys2Proof.Machine.execNop72 x s
  | .nop73 x => Sys2Proof.Machine.execNop73 x s
  | .nop74 x => Sys2Proof.Machine.execNop74 x s
  | .nop75 x => Sys2Proof.Machine.execNop75 x s
  | .nop76 x => Sys2Proof.Machine.execNop76 x s
  | .nop77 x => Sys2Proof.Machine.execNop77 x s

end Sys2Proof.Machine
end

