-- ==== Sys2Proof/Decode.lean ====
section
/-! DEFINITION. Decoding (30_encoding R70 to R79) and, after it, the encoder from the same table. Decoding an opcode word never fails
(R74); the list decoder rejects only a stream that ends too soon. -/

namespace Sys2Proof

/-- The instruction of an opcode index `op` and an ignored field `x`, with `w1` the word after the opcode word, which only a Format O
instruction uses (R71, R72, R75). -/
def decodeFields (x op : BitVec 6) (w1 : Word) : Instr :=
  match op.toNat with
  | 0 => .nop x
  | 1 => .hlt x
  | 2 => .ldi x w1
  | 3 => .lda x w1
  | 4 => .sta x w1
  | 5 => .inp x
  | 6 => .key x
  | 7 => .nop07 x
  | 8 => .add x w1
  | 9 => .sub x w1
  | 10 => .and x w1
  | 11 => .or x w1
  | 12 => .xor x w1
  | 13 => .cmp x w1
  | 14 => .inc x
  | 15 => .dec x
  | 16 => .adi x w1
  | 17 => .sui x w1
  | 18 => .ani x w1
  | 19 => .ori x w1
  | 20 => .xri x w1
  | 21 => .cpi x w1
  | 22 => .nop26 x
  | 23 => .nop27 x
  | 24 => .rlc x
  | 25 => .rrc x
  | 26 => .ral x
  | 27 => .rar x
  | 28 => .nop34 x
  | 29 => .nop35 x
  | 30 => .nop36 x
  | 31 => .nop37 x
  | 32 => .jmp x w1
  | 33 => .jc x w1
  | 34 => .jnc x w1
  | 35 => .jz x w1
  | 36 => .jnz x w1
  | 37 => .call x w1
  | 38 => .ret x
  | 39 => .nop47 x
  | 40 => .nop50 x
  | 41 => .nop51 x
  | 42 => .nop52 x
  | 43 => .nop53 x
  | 44 => .nop54 x
  | 45 => .nop55 x
  | 46 => .nop56 x
  | 47 => .nop57 x
  | 48 => .nop60 x
  | 49 => .nop61 x
  | 50 => .nop62 x
  | 51 => .nop63 x
  | 52 => .nop64 x
  | 53 => .nop65 x
  | 54 => .nop66 x
  | 55 => .nop67 x
  | 56 => .nop70 x
  | 57 => .nop71 x
  | 58 => .nop72 x
  | 59 => .nop73 x
  | 60 => .nop74 x
  | 61 => .nop75 x
  | 62 => .nop76 x
  | _ => .nop77 x -- 63, the last index: six bits give no other

/-- The instruction of an opcode word `w0` with `w1` after it: the opcode is bits [5:0], the ignored field bits [11:6] (R71). -/
def decodeWords (w0 w1 : Word) : Instr := decodeFields (w0.extractLsb' 6 6) (w0.extractLsb' 0 6) w1

/-- An instruction as its table row: the ignored field, the opcode index, the operand word of Format O (R70 to R72, R75). -/
def Instr.parts : Instr → BitVec 6 × BitVec 6 × Option Word
  | .nop x => (x, 0o00, none)
  | .hlt x => (x, 0o01, none)
  | .ldi x imm => (x, 0o02, some imm)
  | .lda x addr => (x, 0o03, some addr)
  | .sta x addr => (x, 0o04, some addr)
  | .inp x => (x, 0o05, none)
  | .key x => (x, 0o06, none)
  | .nop07 x => (x, 0o07, none)
  | .add x addr => (x, 0o10, some addr)
  | .sub x addr => (x, 0o11, some addr)
  | .and x addr => (x, 0o12, some addr)
  | .or x addr => (x, 0o13, some addr)
  | .xor x addr => (x, 0o14, some addr)
  | .cmp x addr => (x, 0o15, some addr)
  | .inc x => (x, 0o16, none)
  | .dec x => (x, 0o17, none)
  | .adi x imm => (x, 0o20, some imm)
  | .sui x imm => (x, 0o21, some imm)
  | .ani x imm => (x, 0o22, some imm)
  | .ori x imm => (x, 0o23, some imm)
  | .xri x imm => (x, 0o24, some imm)
  | .cpi x imm => (x, 0o25, some imm)
  | .nop26 x => (x, 0o26, none)
  | .nop27 x => (x, 0o27, none)
  | .rlc x => (x, 0o30, none)
  | .rrc x => (x, 0o31, none)
  | .ral x => (x, 0o32, none)
  | .rar x => (x, 0o33, none)
  | .nop34 x => (x, 0o34, none)
  | .nop35 x => (x, 0o35, none)
  | .nop36 x => (x, 0o36, none)
  | .nop37 x => (x, 0o37, none)
  | .jmp x addr => (x, 0o40, some addr)
  | .jc x addr => (x, 0o41, some addr)
  | .jnc x addr => (x, 0o42, some addr)
  | .jz x addr => (x, 0o43, some addr)
  | .jnz x addr => (x, 0o44, some addr)
  | .call x addr => (x, 0o45, some addr)
  | .ret x => (x, 0o46, none)
  | .nop47 x => (x, 0o47, none)
  | .nop50 x => (x, 0o50, none)
  | .nop51 x => (x, 0o51, none)
  | .nop52 x => (x, 0o52, none)
  | .nop53 x => (x, 0o53, none)
  | .nop54 x => (x, 0o54, none)
  | .nop55 x => (x, 0o55, none)
  | .nop56 x => (x, 0o56, none)
  | .nop57 x => (x, 0o57, none)
  | .nop60 x => (x, 0o60, none)
  | .nop61 x => (x, 0o61, none)
  | .nop62 x => (x, 0o62, none)
  | .nop63 x => (x, 0o63, none)
  | .nop64 x => (x, 0o64, none)
  | .nop65 x => (x, 0o65, none)
  | .nop66 x => (x, 0o66, none)
  | .nop67 x => (x, 0o67, none)
  | .nop70 x => (x, 0o70, none)
  | .nop71 x => (x, 0o71, none)
  | .nop72 x => (x, 0o72, none)
  | .nop73 x => (x, 0o73, none)
  | .nop74 x => (x, 0o74, none)
  | .nop75 x => (x, 0o75, none)
  | .nop76 x => (x, 0o76, none)
  | .nop77 x => (x, 0o77, none)

/-- The ignored field of the opcode word (R71). -/
def Instr.ignored (i : Instr) : BitVec 6 := i.parts.1

/-- The opcode index (R71). -/
def Instr.opcode (i : Instr) : BitVec 6 := i.parts.2.1

/-- The operand word, for Format O (R72). -/
def Instr.operand (i : Instr) : Option Word := i.parts.2.2

/-- The opcode word: the ignored field above the opcode (R71). -/
def Instr.opcodeWord (i : Instr) : Word := i.ignored ++ i.opcode

/-- The words of an instruction, the opcode at the lower address (R54, R70). -/
def encode (i : Instr) : List Word := i.opcodeWord :: i.operand.toList

/-- Why a stream of words holds no instruction. The machine's own fetch never meets these: its addresses wrap (R51). -/
inductive DecodeError where
  /-- There is no opcode word. -/
  | noOpcodeWord
  /-- The opcode word is of Format O and no word follows it. -/
  | noOperandWord
  deriving DecidableEq, Repr

/-- The instruction at the head of a stream of words, and the words after it. -/
def decode : List Word → Except DecodeError (Instr × List Word)
  | [] => .error .noOpcodeWord
  | [w0] =>
    let i := decodeWords w0 0
    if i.operand.isSome then .error .noOperandWord else .ok (i, [])
  | w0 :: w1 :: rest =>
    let i := decodeWords w0 w1
    if i.operand.isSome then .ok (i, rest) else .ok (i, w1 :: rest)

/-- The instruction whose bits are the low `nbits` of `w`, every higher bit 0: the opcode word is bits 11..0 and the operand word
bits 23..12 (log 25). -/
def decodeTableWord (nbits w : Nat) : Option Instr :=
  let bits := w % 2 ^ nbits
  match decode [BitVec.ofNat 12 bits, BitVec.ofNat 12 (bits / 2 ^ 12)] with
  | .ok (i, _) => some i
  | .error _ => none

end Sys2Proof
end

