-- ==== Sys2Proof/Machine/Table.lean ====
section
/-! DEFINITION. The micro-ops (40_sequencer R100 to R110) as data, and the Instruction Set Table (30_encoding R75, R78): for each
opcode index its mnemonic, operand count, micro-op list and cycle-type labels, transcribed from the spec's table. -/

namespace Sys2Proof.Machine

/-- The address register of a `READ` (R101). -/
inductive AddrReg where
  | pc | mar
  deriving DecidableEq, Repr

/-- The destination register of a `READ` (R101). -/
inductive DestReg where
  | a | b | mar | pc
  deriving DecidableEq, Repr

/-- The micro-operations. -/
inductive MicroOp where
  | incPc                                   -- R100
  | read (x : AddrReg) (y : DestReg)        -- R101
  | write                                   -- R102, WRITE(A, MAR)
  | writeCall                               -- R103
  | loadPcMar                               -- R104
  | retPc                                   -- R105
  | jumpIf (cond : Cond)                    -- R106
  | alu (f : AluFn)                         -- R107
  | inputSw                                 -- R108
  | inputKey                                -- R109
  | halt                                    -- R110
  deriving DecidableEq, Repr

/-- The label of each micro-op (R100 to R110); `READ(PC, PC)` is a jump (R101). -/
def MicroOp.label : MicroOp → Label
  | .incPc => .incPc
  | .read .pc .pc => .jump
  | .read _ _ => .memRead
  | .write => .memWrite
  | .writeCall => .memWrite
  | .loadPcMar => .jump
  | .retPc => .jump
  | .jumpIf _ => .jump
  | .alu _ => .alu
  | .inputSw => .input
  | .inputKey => .input
  | .halt => .halt

/-- How many operand words a micro-op reads through PC (R78): an operand `READ`, or a conditional jump's target. -/
def MicroOp.operandWords : MicroOp → Nat
  | .read .pc _ => 1
  | .jumpIf _ => 1
  | _ => 0

/-- One entry of the table (R78). -/
structure Entry where
  mnemonic : String
  operandCount : Nat
  microOps : List MicroOp
  labels : List Label
  deriving DecidableEq, Repr

/-- NOP, and the fill of every reserved index (R75, R76). -/
def nopEntry : Entry := ⟨"NOP", 0, [.incPc], [.incPc]⟩

/-- A memory-operand ALU row (R75; 42_alu section 2). -/
def memAluEntry (name : String) (f : AluFn) : Entry :=
  ⟨name, 1, [.incPc, .read .pc .mar, .read .mar .b, .alu f, .incPc], [.incPc, .memRead, .memRead, .alu, .incPc]⟩

/-- An immediate ALU row (R75; 42_alu section 3). -/
def immAluEntry (name : String) (f : AluFn) : Entry :=
  ⟨name, 1, [.incPc, .read .pc .b, .alu f, .incPc], [.incPc, .memRead, .alu, .incPc]⟩

/-- An ALU row on A alone (R75; 42_alu sections 4 and 5). -/
def accAluEntry (name : String) (f : AluFn) : Entry :=
  ⟨name, 0, [.alu f, .incPc], [.alu, .incPc]⟩

/-- A conditional-jump row (R75). -/
def jumpIfEntry (name : String) (cond : Cond) : Entry :=
  ⟨name, 1, [.incPc, .jumpIf cond], [.incPc, .jump]⟩

/-- Rows 0o00 to 0o07. -/
def tableData : List Entry :=
  [nopEntry,
   ⟨"HLT", 0, [.incPc, .halt], [.incPc, .halt]⟩,
   ⟨"LDI", 1, [.incPc, .read .pc .a, .incPc], [.incPc, .memRead, .incPc]⟩,
   ⟨"LDA", 1, [.incPc, .read .pc .mar, .read .mar .a, .incPc], [.incPc, .memRead, .memRead, .incPc]⟩,
   ⟨"STA", 1, [.incPc, .read .pc .mar, .write, .incPc], [.incPc, .memRead, .memWrite, .incPc]⟩,
   ⟨"IN", 0, [.inputSw, .incPc], [.input, .incPc]⟩,
   ⟨"KEY", 0, [.inputKey, .incPc], [.input, .incPc]⟩,
   nopEntry]

/-- Rows 0o10 to 0o17. -/
def tableMemAlu : List Entry :=
  [memAluEntry "ADD" .add, memAluEntry "SUB" .sub, memAluEntry "AND" .and, memAluEntry "OR" .or,
   memAluEntry "XOR" .xor, memAluEntry "CMP" .cmp, accAluEntry "INC" .inc, accAluEntry "DEC" .dec]

/-- Rows 0o20 to 0o27. -/
def tableImmAlu : List Entry :=
  [immAluEntry "ADI" .add, immAluEntry "SUI" .sub, immAluEntry "ANI" .and, immAluEntry "ORI" .or,
   immAluEntry "XRI" .xor, immAluEntry "CPI" .cmp, nopEntry, nopEntry]

/-- Rows 0o30 to 0o37. -/
def tableRotate : List Entry :=
  [accAluEntry "RLC" .rlc, accAluEntry "RRC" .rrc, accAluEntry "RAL" .ral, accAluEntry "RAR" .rar,
   nopEntry, nopEntry, nopEntry, nopEntry]

/-- Rows 0o40 to 0o47. -/
def tableControl : List Entry :=
  [⟨"JMP", 1, [.incPc, .read .pc .pc], [.incPc, .jump]⟩,
   jumpIfEntry "JC" .c, jumpIfEntry "JNC" .nc, jumpIfEntry "JZ" .z, jumpIfEntry "JNZ" .nz,
   ⟨"CALL", 1, [.incPc, .read .pc .mar, .incPc, .writeCall, .loadPcMar],
     [.incPc, .memRead, .incPc, .memWrite, .jump]⟩,
   ⟨"RET", 0, [.retPc], [.jump]⟩,
   nopEntry]

/-- The 64 entries in order; rows 0o50 to 0o77 are all reserved (R75). -/
def table : List Entry :=
  tableData ++ tableMemAlu ++ tableImmAlu ++ tableRotate ++ tableControl ++ List.replicate 24 nopEntry

/-- The entry of an opcode index; every index below `T = 64` has one (R74). -/
def entry (op : BitVec 6) : Entry := table.getD op.toNat nopEntry

/-- The decoded opcode index `op = IR mod T` (R37, R71, R74). -/
def opcodeOf (w : Word) : BitVec 6 := w.extractLsb' 0 6

/-- The label of the cycle `mc` when IR holds `ir` (R116). -/
def labelAt (ir : Word) (mc : Nat) : Label :=
  match mc with
  | 0 => .fetch
  | 1 => .decode
  | c + 2 => (entry (opcodeOf ir)).labels.getD c .fetch

end Sys2Proof.Machine
end

