-- ==== Sys2Proof/Machine/Sequencer.lean ====
section
/-! DEFINITION. The cycle-level machine (40_sequencer): the effect of each micro-op, the FETCH, DECODE and EXECUTE cycles, and one
tick. `update` is the whole of R117. -/

namespace Sys2Proof.Machine

/-- The address a `READ` uses (R101). -/
def AddrReg.value (x : AddrReg) (s : State) : Word :=
  match x with
  | .pc => s.pc
  | .mar => s.mar

/-- `y <- v` for the destination of a `READ` (R101). -/
def DestReg.load (y : DestReg) (v : Word) (s : State) : State :=
  match y with
  | .a => s.setA v
  | .b => s.setB v
  | .mar => s.setMar v
  | .pc => s.setPc v

/-- The effect of a micro-op (R100 to R110). -/
def MicroOp.apply (m : MicroOp) (s : State) : State :=
  match m with
  | .incPc => s.setPc (s.pc + 1)
  | .read x y => y.load (s.memRead (x.value s).toNat) s
  | .write => s.memWrite s.mar.toNat s.a
  | .writeCall => s.memWrite Config.callAddr s.pc
  | .loadPcMar => s.setPc s.mar
  | .retPc => s.setPc (s.memRead Config.callAddr)
  | .jumpIf cond => s.setPc (if cond.holds s then s.memRead s.pc.toNat else s.pc + 1)
  | .alu f => s.alu f
  | .inputSw => s.setA s.sw
  | .inputKey => s.inputKey
  | .halt => s.halt

/-- A list of micro-ops in order, with nothing between them (R120). -/
def State.applyAll (s : State) : List MicroOp → State
  | [] => s
  | m :: rest => (m.apply s).applyAll rest

/-- The FETCH cycle, `mc = 0` (R112): PC does not change. -/
def State.fetchCycle (s : State) : State :=
  { s with ir := s.memRead s.pc.toNat, label := .decode, mc := 1 }

/-- The DECODE cycle, `mc = 1` (R113). -/
def State.decodeCycle (s : State) : State := s.goto 2 (labelAt s.ir 2)

/-- The micro-op with index `c` applied, if the entry has one. A cycle beyond the list is met in no run (R34); it has no effect
(log 14). -/
def State.applyMicroOp (s : State) (c : Nat) : State :=
  match (entry (opcodeOf s.ir)).microOps[c]? with
  | some m => m.apply s
  | none => s

/-- The EXECUTE cycle `mc = c + 2` (R114): the micro-op, then the next one's label, or the end of the instruction cycle. -/
def State.executeCycle (s : State) (c : Nat) : State :=
  if c + 1 < (entry (opcodeOf s.ir)).microOps.length then
    (s.applyMicroOp c).goto (c + 3) (labelAt s.ir (c + 3))
  else
    (s.applyMicroOp c).endInstr

/-- `cycle()`: one machine cycle, chosen by `mc` (R117). -/
def State.cycle (s : State) : State :=
  match s.mc with
  | 0 => s.fetchCycle
  | 1 => s.decodeCycle
  | c + 2 => s.executeCycle c

/-- `consume_step()` after a forced cycle (R118). -/
def State.consumeStep (s : State) : State :=
  { s with mPending := false,
           iActive := s.iActive && decide (s.mc ≠ 0) && !s.halted }

/-- `want_step` (R117). -/
def State.wantStep (s : State) : Bool := s.mPending || s.iActive

/-- `update()`, one tick (R117). -/
def State.update (s : State) : State :=
  if !s.on then s
  else if s.running then s.cycle
  else if s.wantStep && (!s.halted || Config.stepWhenHalted) then s.cycle.consumeStep
  else if s.wantStep then s.cancelSteps
  else s

/-- `n` ticks with nothing between them. -/
def State.updates : Nat → State → State
  | 0, s => s
  | n + 1, s => State.updates n s.update

/-- The machine cycles an instruction takes: FETCH, DECODE and its micro-ops (R115, R272). -/
def cyclesOf (op : BitVec 6) : Nat := (entry op).microOps.length + 2

/-- The instruction whose opcode word is at `p`: its operand is the next word (R73). -/
def State.instrAt (s : State) (p : Word) : Instr :=
  decodeWords (s.memRead p.toNat) (s.memRead (p + 1).toNat)

/-- In the instruction-level view, the next ticks are a whole instruction cycle: at FETCH, powered, and armed or in an instruction
step (R117, R118, R120). -/
def State.startsInstr (s : State) : Bool :=
  decide (s.stepUnit = .instruction) && s.on && decide (s.mc = 0) && (s.running || (s.iActive && !s.halted))

/-- The step flags after a whole instruction: a forced one consumes them (R118). `forced` is that `running` was low. -/
def State.afterInstr (s : State) (forced : Bool) : State :=
  if forced then s.consumeStep else s

end Sys2Proof.Machine
end

