-- ==== Sys2Proof/Machine/FrontPanel.lean ====
section
/-! DEFINITION. The front-panel input lines (60_exceptions R228 to R241): one scan, in the order of R229 (R222, D34): switches,
power, reset, run, examine, examine_next, deposit, deposit_next, steps, then the latch of the lines. -/

namespace Sys2Proof.Machine

/-- `rise(x)`: high now, low at the last scan (R229). -/
def rise (now before : Bool) : Bool := now && !before

/-- `fall(x)`: low now, high at the last scan (R229). -/
def fall (now before : Bool) : Bool := !now && before

/-- The switch latch, "even while powered off" (R240). -/
def State.latchSwitches (s : State) (l : Inputs) : State := { s with sw := wrapN l.switches }

/-- The power line (R230, R231). -/
def State.scanPower (s : State) (l : Lines) : State :=
  if rise l.on s.prev.on then s.powerOn
  else if fall l.on s.prev.on then s.powerOff
  else s

/-- The reset line (R235). -/
def State.scanReset (s : State) (l : Lines) : State :=
  if rise l.reset s.prev.reset then s.doReset else s

/-- `running` armed: pending steps are cancelled (R232). -/
def State.arm (s : State) : State := { s with running := true, mPending := false, iActive := false }

/-- The run line: low disarms, a rising edge arms while not halted (R232). -/
def State.scanRun (s : State) (l : Lines) : State :=
  if !l.run then { s with running := false }
  else if rise l.run s.prev.run && !s.halted then s.arm
  else s

/-- PC set from the panel: the instruction cycle restarts and pending steps are dropped (R236, R237). -/
def State.examineAt (s : State) (v : Word) : State :=
  { s with pc := v, mc := 0, label := .fetch, mPending := false, iActive := false }

/-- Examine (R236). -/
def State.scanExamine (s : State) (l : Lines) : State :=
  if rise l.examine s.prev.examine then s.examineAt s.sw else s

/-- Examine next (R237). -/
def State.scanExamineNext (s : State) (l : Lines) : State :=
  if rise l.examineNext s.prev.examineNext then s.examineAt (s.pc + 1) else s

/-- Deposit (R238). -/
def State.scanDeposit (s : State) (l : Lines) : State :=
  if rise l.deposit s.prev.deposit then s.memWrite s.pc.toNat s.sw else s

/-- Deposit next (R239). -/
def State.scanDepositNext (s : State) (l : Lines) : State :=
  if rise l.depositNext s.prev.depositNext then (s.setPc (s.pc + 1)).memWrite (s.pc + 1).toNat s.sw else s

/-- Examine and deposit, only while not running (R225, R236 to R239). -/
def State.scanPanel (s : State) (l : Lines) : State :=
  if s.running then s
  else (((s.scanExamine l).scanExamineNext l).scanDeposit l).scanDepositNext l

/-- The step lines, only while `run` is low (R233, R234). -/
def State.scanSteps (s : State) (l : Lines) : State :=
  if l.run then s
  else { s with mPending := s.mPending || rise l.mStep s.prev.mStep,
                iActive := s.iActive || rise l.iStep s.prev.iStep }

/-- What a scan does while powered, the power line aside (R229). -/
def State.scanPowered (s : State) (l : Lines) : State :=
  (((s.scanReset l).scanRun l).scanPanel l).scanSteps l

/-- The lines that count: while powered off, every line but `on` is ignored (R229, R231, D18). -/
def State.scanIfOn (s : State) (l : Lines) : State :=
  if s.on then s.scanPowered l else s

/-- `prev` takes the lines' levels (R229, R33). -/
def State.latchLines (s : State) (l : Lines) : State := { s with prev := l }

/-- `scanInputs(L)` (R229). -/
def State.scanInputs (s : State) (l : Inputs) : State :=
  (((s.latchSwitches l).scanPower l.lines).scanIfOn l.lines).latchLines l.lines

end Sys2Proof.Machine
end

