-- ==== Sys2Proof/Machine/Transfer.lean ====
section
/-! DEFINITION. The host's RAM text adapter: import (60_exceptions R242, R243) and export (R244). A text is a list of characters.
The parameters are those of 00_scope R6: four octal digits a word, eight words a line. -/

namespace Sys2Proof.Machine

/-- The value of an octal digit; any other character is skipped (R243 step 1). -/
def octalValue (c : Char) : Option Nat :=
  if 48 ≤ c.toNat ∧ c.toNat ≤ 55 then some (c.toNat - 48) else none

/-- Groups of four digits as words; a shorter last group is dropped (R243 steps 2 to 4). -/
def groupWords : List Nat → List Word
  | d3 :: d2 :: d1 :: d0 :: rest => wrapN (512 * d3 + 64 * d2 + 8 * d1 + d0 : Nat) :: groupWords rest
  | _ => []

/-- `parse(text)` (R243). -/
def parseText (text : List Char) : List Word := groupWords (text.filterMap octalValue)

/-- The words stored from address 0 on, and zeros after them (R242). -/
def State.loadRam (s : State) (ws : List Word) : State :=
  { s with mem := Mem.fill 0 (ws ++ List.replicate (Config.ramWords - ws.length) 0) }

/-- What `importRAM` answers (R242). -/
def State.importResult (s : State) (text : List Char) : ImportResult :=
  if !s.on then .notPoweredOn
  else if s.running then .running
  else if parseText text = [] then .noValidData
  else if Config.ramWords < (parseText text).length then .addressOutOfRange
  else .ok

/-- What `importRAM` does: memory only, and only when it answers OK (R242). -/
def State.importRam (s : State) (text : List Char) : State :=
  if s.importResult text = .ok then s.loadRam (parseText text) else s

/-- An octal digit (R244). -/
def octalDigit (d : Nat) : Char := Char.ofNat (48 + d % 8)

/-- A word as four octal digits, most significant first (R244). -/
def wordDigits (w : Word) : List Char :=
  [octalDigit (w.toNat / 512), octalDigit (w.toNat / 64), octalDigit (w.toNat / 8), octalDigit w.toNat]

/-- What stands before the word at index `i`: nothing, a line break every eight words, else one space (R244). -/
def separatorBefore (i : Nat) : List Char :=
  if i = 0 then [] else if i % 8 = 0 then ['\n'] else [' ']

/-- The text of the words, the first of which has index `i` (R244). -/
def exportWords (i : Nat) : List Word → List Char
  | [] => []
  | w :: rest => separatorBefore i ++ wordDigits w ++ exportWords (i + 1) rest

/-- Every word of RAM in order. -/
def State.ramWordList (s : State) : List Word := (List.range Config.ramWords).map s.mem.read

/-- `exportRAM()` (R244). -/
def State.exportText (s : State) : List Char := exportWords 0 s.ramWordList

end Sys2Proof.Machine
end

