-- ==== Sys2Proof/Machine/HostInterface.lean ====
section
/-! DEFINITION. The host's actions (60_exceptions R248), each atomic and between ticks (20_memory R62), and the placing of one
instruction where the next step runs it (log 16). -/

namespace Sys2Proof.Machine

/-- `getWordAt(address)` (R53). -/
def State.getWordAt (s : State) (addr : Int) : Word := s.memRead addr

/-- `putWordAt(address, value)`, not gated (R53, D36). -/
def State.putWordAt (s : State) (addr value : Int) : State := s.memWrite addr (wrapN value)

/-- What an action returns to the host (R248). -/
def State.replyTo (s : State) (act : HostAction) : Option HostReply :=
  match act with
  | .scanInputs _ => none
  | .update => none
  | .getWordAt addr => some (.word (s.getWordAt addr))
  | .putWordAt _ _ => none
  | .importRam text => some (.imported (s.importResult text))
  | .exportRam => some (.text s.exportText)
  | .supplyKey _ => none
  | .construct => none

/-- What an action does to the engine (R248). -/
def State.effectOf (s : State) (act : HostAction) : State :=
  match act with
  | .scanInputs l => s.scanInputs l
  | .update => s.update
  | .getWordAt _ => s
  | .putWordAt addr value => s.putWordAt addr value
  | .importRam text => s.importRam text
  | .exportRam => s
  | .supplyKey v => { s with keyIn := some v }
  | .construct => s.construct

/-- An action performed, its reply recorded (R248; log 2). -/
def State.perform (s : State) (act : HostAction) : State :=
  { s.effectOf act with reply := s.replyTo act }

/-- The state with two words at PC and the machine armed at FETCH with the host idle, so that the next step, an
instruction, runs them (log 16). -/
def State.placeAtPc (s : State) (w0 w1 : Word) : State :=
  { (((s.memWrite s.pc.toNat w0).memWrite (s.pc + 1).toNat w1).arm.goto 0 .fetch) with
    on := true, halted := false, inbox := [], stepUnit := .instruction }

end Sys2Proof.Machine
end

