-- ==== Sys2Proof/Machine/Step.lean ====
section
/-! DEFINITION. One step. If the host has an action pending, the step is that action; `update` among them is one tick (40_sequencer
R119, 60_exceptions R248). With none pending the host only calls `update`: the step is then one tick (00_scope R3), or in the
instruction-level view the ticks of one whole instruction where one starts (R120; log 1). -/

namespace Sys2Proof.Machine

/-- One step of the machine (log 1). -/
def step (s : State) : Host.Outcome State Fault Refusal :=
  match s.inbox with
  | act :: rest => .next ({ s with inbox := rest }.perform act)
  | [] =>
    if s.startsInstr then
      match exec (s.instrAt s.pc) s with
      | .next t => .next (t.afterInstr (!s.running))
      | .fault r => .fault r
      | .refused r => .refused r
    else .next s.update

/-- `s` with the instruction whose bits are the low `nbits` of `w` at PC, so that the next step runs it (log 16, log 25). -/
def State.withFetchWord (s : State) (nbits w : Nat) : State :=
  s.placeAtPc (BitVec.ofNat 12 (w % 2 ^ nbits)) (BitVec.ofNat 12 (w % 2 ^ nbits / 2 ^ 12))

end Sys2Proof.Machine
end

