-- ==== Sys2Proof/Machine/Observe.lean ====
section
/-! DEFINITION. The optional "what changed this tick" signal (60_exceptions R245): a function of the states before and after, which
no rule reads. -/

namespace Sys2Proof.Machine

/-- A register that changed: its name, its old value and its new one. -/
structure RegChange where
  reg : String
  old : Word
  new : Word
  deriving DecidableEq, Repr

/-- The memory addresses whose words differ (R245). -/
def changedAddrs (s t : State) : List Nat :=
  (List.range Config.ramWords).filter fun i => decide (s.mem.read i ≠ t.mem.read i)

/-- A change of one register, if there is one. -/
def regChange (name : String) (old new : Word) : List RegChange :=
  if old = new then [] else [⟨name, old, new⟩]

/-- The registers that differ, with their old and new values (R245). -/
def changedRegs (s t : State) : List RegChange :=
  regChange "A" s.a t.a ++ regChange "B" s.b t.b ++ regChange "PC" s.pc t.pc ++
    regChange "IR" s.ir t.ir ++ regChange "MAR" s.mar t.mar

end Sys2Proof.Machine
end

