-- ==== Sys2Proof/Safety.lean ====
section
/-! DEFINITION. What a sound state is: the invariants the spec states or implies of every reachable state. No step faults (60_exceptions
R220), so a run is safe when every state of it is sound. -/

namespace Sys2Proof.Machine

/-- Halted implies not running (R38). -/
abbrev State.haltedStops (s : State) : Prop := s.halted = true → s.running = false

/-- While running, no forced step is pending (R229, R232). -/
abbrev State.runCancelsSteps (s : State) : Prop := s.running = true → s.mPending = false ∧ s.iActive = false

/-- While powered off, nothing is armed (R231, R264). -/
abbrev State.offIsIdle (s : State) : Prop :=
  s.on = false → s.running = false ∧ s.mPending = false ∧ s.iActive = false

/-- `mc` lies in `[0, m + 1]` for the decoded opcode's m micro-ops (R34). -/
abbrev State.mcInRange (s : State) : Prop := s.mc ≤ (entry (opcodeOf s.ir)).microOps.length + 1

/-- `label` names the kind of the cycle the next effective tick runs (R36, R116). -/
abbrev State.labelNamesCycle (s : State) : Prop := s.label = labelAt s.ir s.mc

/-- The sound states. -/
structure State.Sound (s : State) : Prop where
  memWf : s.mem.wf = true
  haltedStops : s.haltedStops
  runCancelsSteps : s.runCancelsSteps
  offIsIdle : s.offIsIdle
  mcInRange : s.mcInRange
  labelNamesCycle : s.labelNamesCycle

/-- The power line's latch is the power status, and `running` needs the run line high at the last scan (R33, R229, R232). -/
structure State.LatchSound (s : State) : Prop where
  powerLatched : s.prev.on = s.on
  runHeld : s.running = true → s.prev.run = true

end Sys2Proof.Machine
end

