-- ==== Sys2Proof/WellFormed.lean ====
section
/-! DEFINITION. What is checked of data whose type does not check it: the parameters of an instance (00_scope R7) and the entries
of the Instruction Set Table (30_encoding R78, 40_sequencer R121). An instruction needs no check: its fields are bit vectors of
their encoded widths, so every term of `Instr` has an encoding (R71, R72, R77). -/

namespace Sys2Proof

/-- `1 <= K <= N` (R7). -/
def Params.opcodeFits (p : Params) : Bool := decide (1 ≤ p.opcodeBits) && decide (p.opcodeBits ≤ p.wordBits)

/-- `RAM_WORDS >= 1` and `0 <= CALL_ADDR < RAM_WORDS` (R7). -/
def Params.callAddrInRam (p : Params) : Bool := decide (p.callAddr < p.ramWords)

/-- The opcode map needs `K >= 6` (R7). -/
def Params.mapFits (p : Params) : Bool := decide (6 ≤ p.opcodeBits)

/-- Every memory word is reachable through a one-word address: `RAM_WORDS <= 2^N` (R7). -/
def Params.ramReachable (p : Params) : Bool := decide (p.ramWords ≤ 2 ^ p.wordBits)

/-- The instruction stream is contiguous across the wrap of PC: `RAM_WORDS` divides `2^N` (R7). -/
def Params.wrapContiguous (p : Params) : Bool := decide (2 ^ p.wordBits % p.ramWords = 0)

/-- Every condition of R7. -/
def Params.wf (p : Params) : Bool :=
  p.opcodeFits && p.callAddrInRam && p.mapFits && p.ramReachable && p.wrapContiguous

namespace Machine

/-- "Every entry has `len(micro_ops) >= 1`" (R78, R121). -/
def Entry.nonempty (e : Entry) : Bool := decide (1 ≤ e.microOps.length)

/-- One label per micro-op, the one the micro-op's rule gives (R78, R100 to R110, R121). -/
def Entry.labelled (e : Entry) : Bool := decide (e.labels = e.microOps.map MicroOp.label)

/-- The operand count equals the number of operand words the micro-ops read through PC (R78). -/
def Entry.operandsCounted (e : Entry) : Bool :=
  decide (e.operandCount = (e.microOps.map MicroOp.operandWords).sum)

/-- Every check on an entry. No micro-op of the type can write IR (R121). -/
def Entry.wf (e : Entry) : Bool := e.nonempty && e.labelled && e.operandsCounted

end Machine

end Sys2Proof
end

