-- ==== Sys2Proof/Certificates/Slice0/Obligations.lean ====
section
/-! DEFINITION. The statements for the provers, from the numbered rules of spec/. The instruction statements are made at both levels:
what `exec` answers, and what the micro-ops leave after the instruction's ticks (40_sequencer R120). -/

open Sys2Proof Sys2Proof.Machine

/-- The machine is powered, armed and at FETCH, and the words `ws` stand from PC on (30_encoding R70, R73). -/
def Sys2Proof.Certificates.RunsFrom (ws : List Word) (s : State) : Prop :=
  s.on = true ∧ s.running = true ∧ s.mc = 0 ∧
    ∀ k w, ws[k]? = some w → s.memRead (s.pc + BitVec.ofNat 12 k).toNat = w

/-- `i` has the words `ws` and runs the micro-ops `ops`, labelled as each micro-op's rule says: `exec` answers `t`, and where the
words stand at PC, FETCH, DECODE and these micro-ops, one a tick, leave `t` (30_encoding R75; 40_sequencer R114, R115, R120). -/
def Sys2Proof.Certificates.Completes (i : Instr) (ws : List Word) (ops : List MicroOp) (s t : State) : Prop :=
  exec i s = .next t ∧ encode i = ws ∧ (entry i.opcode).microOps = ops ∧
    (entry i.opcode).labels = ops.map MicroOp.label ∧
    (Sys2Proof.Certificates.RunsFrom ws s → s.updates (ops.length + 2) = t)

/-- The effects every instruction has in common: IR from the opcode word, the new PC, and the end of the instruction cycle (head of
41_data_movement). Everything else is as in `s`. -/
def Sys2Proof.Certificates.finished (s : State) (ir pc : Word) : State :=
  { s with ir := ir, pc := pc, mc := 0, ic := s.ic + 1, label := .fetch }

/-- The carry of the subtract family as a comparison (42_alu R151, R178). -/
def Sys2Proof.Certificates.compareCarry (pol : Polarity) (a b : Word) : Bool :=
  match pol with
  | .notBorrow => decide (b.toNat ≤ a.toNat)
  | .borrow => decide (a.toNat < b.toNat)

/-- The micro-ops of a memory-operand ALU instruction (42_alu section 2). -/
def Sys2Proof.Certificates.memAluOps (f : AluFn) : List MicroOp :=
  [.incPc, .read .pc .mar, .read .mar .b, .alu f, .incPc]

/-- The micro-ops of an immediate ALU instruction (42_alu section 3). -/
def Sys2Proof.Certificates.immAluOps (f : AluFn) : List MicroOp :=
  [.incPc, .read .pc .b, .alu f, .incPc]

/-- The lines with only `on` high. -/
def Sys2Proof.Certificates.onLine : Lines := { Lines.low with on := true }

open Sys2Proof.Certificates

/-! ### Encoding -/

/-- Words written out from the encodings of 30_encoding R71 and R75, one or more of each family, and E1 of 95_test_vectors. -/
def Obligations.SampleWordsDecode : Prop :=
  decode [0o0000] = .ok (.nop 0, []) ∧ decode [0o0001] = .ok (.hlt 0, []) ∧
  decode [0o0002, 0o0005] = .ok (.ldi 0 5, []) ∧ decode [0o7702, 0o0005] = .ok (.ldi 0o77 5, []) ∧
  decode [0o0004, 0o0077] = .ok (.sta 0 0o77, []) ∧ decode [0o0010, 0o0040] = .ok (.add 0 0o40, []) ∧
  decode [0o0025, 0o0005] = .ok (.cpi 0 5, []) ∧ decode [0o5516] = .ok (.inc 0o55, []) ∧
  decode [0o0033] = .ok (.rar 0, []) ∧ decode [0o0045, 0o0020] = .ok (.call 0 0o20, []) ∧
  decode [0o0146] = .ok (.ret 1, []) ∧ decode [0o0007] = .ok (.nop07 0, []) ∧
  decode [0o7777] = .ok (.nop77 0o77, []) ∧ decode [0o0002] = .error .noOperandWord ∧
  decode [] = .error .noOpcodeWord

/-- Decoding the words of any instruction gives it back, with every value of the ignored field and of the operand, and leaves the
words after it (30_encoding section 1). -/
def Obligations.DecodeInvertsEncode : Prop :=
  ∀ (i : Instr) (rest : List Word), decode (encode i ++ rest) = .ok (i, rest)

/-- Encoding what any two words decode to gives back the words the instruction has: the opcode word, and the operand word exactly
when the table's entry has an operand (30_encoding section 1, R71, R78). -/
def Obligations.EncodeInvertsDecode : Prop :=
  ∀ w0 w1 : Word, encode (decodeWords w0 w1) =
    if (entry (opcodeOf w0)).operandCount = 1 then [w0, w1] else [w0]

/-- Decode is total (R74): every word's index modulo the table size has an entry with a mnemonic and a non-empty micro-op list, one
label a micro-op (R121), of at most five micro-ops (E1). -/
def Obligations.EveryWordHasAnEntry : Prop :=
  ∀ w : Word, (opcodeOf w).toNat = w.toNat % 64 ∧
    table[w.toNat % 64]? = some (entry (opcodeOf w)) ∧
    (entry (opcodeOf w)).mnemonic ≠ "" ∧ 1 ≤ (entry (opcodeOf w)).microOps.length ∧
    (entry (opcodeOf w)).microOps.length ≤ 5 ∧
    (entry (opcodeOf w)).labels.length = (entry (opcodeOf w)).microOps.length

/-- Two opcode words that differ only in the ignored field run identically but for the value left in IR (R77). -/
def Obligations.IgnoredBitsReachOnlyIr : Prop :=
  ∀ (w w' w1 : Word) (s : State), w.toNat % 64 = w'.toNat % 64 →
    ∃ t, exec (decodeWords w w1) s = .next t ∧ t.ir = w ∧
      exec (decodeWords w' w1) s = .next { t with ir := w' }

/-! ### Data movement -/

/-- LDI (R130): A becomes the immediate, PC goes past both words, and no flag or other register but IR changes. -/
def Obligations.LdiLoadsImmediate : Prop :=
  ∀ (x : BitVec 6) (imm : Word) (s : State),
    Completes (.ldi x imm) [x ++ 0o02#6, imm] [.incPc, .read .pc .a, .incPc] s
      (finished { s with a := imm } (x ++ 0o02#6) (s.pc + 2))

/-- LDA (R131): A becomes the memory word at the wrapped address, MAR keeps the address whole, and no flag changes. -/
def Obligations.LdaLoadsMemoryWord : Prop :=
  ∀ (x : BitVec 6) (addr : Word) (s : State),
    Completes (.lda x addr) [x ++ 0o03#6, addr] [.incPc, .read .pc .mar, .read .mar .a, .incPc] s
      (finished { s with mar := addr, a := s.mem.read (addr.toNat % 64) } (x ++ 0o03#6) (s.pc + 2))

/-- STA (R132): one word of memory, at the wrapped address, becomes A; every other word reads as before; MAR keeps the address. -/
def Obligations.StaStoresAccumulator : Prop :=
  ∀ (x : BitVec 6) (addr : Word) (s : State), s.mem.wf = true →
    ∃ t, Completes (.sta x addr) [x ++ 0o04#6, addr] [.incPc, .read .pc .mar, .write, .incPc] s t ∧
      t = finished { s with mar := addr, mem := t.mem } (x ++ 0o04#6) (s.pc + 2) ∧
      ∀ j : Int, t.memRead j = if wrapR j = wrapR addr.toNat then s.a else s.memRead j

/-- IN (R133): A becomes the latched switch word, and no flag changes. -/
def Obligations.InReadsLatchedSwitches : Prop :=
  ∀ (x : BitVec 6) (s : State),
    Completes (.inp x) [x ++ 0o05#6] [.inputSw, .incPc] s (finished { s with a := s.sw } (x ++ 0o05#6) (s.pc + 1))

/-- KEY (R134, R241): the supplied word, which one KEY takes (log 7), or where none is supplied a free value, about which this says
nothing more; no flag changes. -/
def Obligations.KeyReadsSuppliedWordOrDraw : Prop :=
  ∀ (x : BitVec 6) (s : State),
    (∀ w, s.keyIn = some w →
      Completes (.key x) [x ++ 0o06#6] [.inputKey, .incPc] s
        (finished { s with a := w, keyIn := none } (x ++ 0o06#6) (s.pc + 1))) ∧
    (s.keyIn = none →
      Completes (.key x) [x ++ 0o06#6] [.inputKey, .incPc] s
        (finished { s with a := Config.keyDraw s.draws, draws := s.draws + 1 } (x ++ 0o06#6) (s.pc + 1)))

/-! ### ALU -/

/-- ADD and ADI (R150, R155, R161): the wrapping sum, carry on unsigned overflow, zero from the sum; B keeps the operand, and MAR
changes only for ADD. -/
def Obligations.AddSetsSumCarryZero : Prop :=
  ∀ (x : BitVec 6) (v : Word) (s : State),
    Completes (.add x v) [x ++ 0o10#6, v] (memAluOps .add) s
      (finished { s with mar := v, b := s.memRead v.toNat, a := s.a + s.memRead v.toNat,
                         carry := decide (2 ^ 12 ≤ s.a.toNat + (s.memRead v.toNat).toNat),
                         zero := decide (s.a + s.memRead v.toNat = 0) } (x ++ 0o10#6) (s.pc + 2)) ∧
    Completes (.adi x v) [x ++ 0o20#6, v] (immAluOps .add) s
      (finished { s with b := v, a := s.a + v, carry := decide (2 ^ 12 ≤ s.a.toNat + v.toNat),
                         zero := decide (s.a + v = 0) } (x ++ 0o20#6) (s.pc + 2))

/-- SUB and SUI (R151, R156, R162): the wrapping difference, carry by the polarity the machine runs with as a comparison, zero exactly when the
operands are equal. -/
def Obligations.SubSetsDifferenceCarryZero : Prop :=
  ∀ (x : BitVec 6) (v : Word) (s : State),
    Completes (.sub x v) [x ++ 0o11#6, v] (memAluOps .sub) s
      (finished { s with mar := v, b := s.memRead v.toNat, a := s.a - s.memRead v.toNat,
                         carry := compareCarry s.polarity s.a (s.memRead v.toNat),
                         zero := decide (s.a = s.memRead v.toNat) } (x ++ 0o11#6) (s.pc + 2)) ∧
    Completes (.sui x v) [x ++ 0o21#6, v] (immAluOps .sub) s
      (finished { s with b := v, a := s.a - v, carry := compareCarry s.polarity s.a v,
                         zero := decide (s.a = v) } (x ++ 0o21#6) (s.pc + 2))

/-- CMP and CPI (R151, R160, R166): A is left as it was; carry as for SUB, zero exactly when A equals the operand; B keeps it. -/
def Obligations.CompareSetsFlagsOnly : Prop :=
  ∀ (x : BitVec 6) (v : Word) (s : State),
    Completes (.cmp x v) [x ++ 0o15#6, v] (memAluOps .cmp) s
      (finished { s with mar := v, b := s.memRead v.toNat,
                         carry := compareCarry s.polarity s.a (s.memRead v.toNat),
                         zero := decide (s.a = s.memRead v.toNat) } (x ++ 0o15#6) (s.pc + 2)) ∧
    Completes (.cpi x v) [x ++ 0o25#6, v] (immAluOps .cmp) s
      (finished { s with b := v, carry := compareCarry s.polarity s.a v,
                         zero := decide (s.a = v) } (x ++ 0o25#6) (s.pc + 2))

/-- AND, OR, XOR with a memory word and ANI, ORI, XRI with an immediate (R152, R157 to R159, R163 to R165): bitwise, carry cleared,
zero from the result; B keeps the operand, and MAR changes only for the memory forms. -/
def Obligations.LogicClearsCarry : Prop :=
  ∀ (x : BitVec 6) (v : Word) (s : State),
    (∀ p ∈ [(Instr.and x v, 0o12#6, AluFn.and, s.a &&& s.memRead v.toNat),
            (Instr.or x v, 0o13#6, AluFn.or, s.a ||| s.memRead v.toNat),
            (Instr.xor x v, 0o14#6, AluFn.xor, s.a ^^^ s.memRead v.toNat)],
      Completes p.1 [x ++ p.2.1, v] (memAluOps p.2.2.1) s
        (finished { s with mar := v, b := s.memRead v.toNat, a := p.2.2.2, carry := false,
                           zero := decide (p.2.2.2 = 0) } (x ++ p.2.1) (s.pc + 2))) ∧
    (∀ p ∈ [(Instr.ani x v, 0o22#6, AluFn.and, s.a &&& v), (Instr.ori x v, 0o23#6, AluFn.or, s.a ||| v),
            (Instr.xri x v, 0o24#6, AluFn.xor, s.a ^^^ v)],
      Completes p.1 [x ++ p.2.1, v] (immAluOps p.2.2.1) s
        (finished { s with b := v, a := p.2.2.2, carry := false, zero := decide (p.2.2.2 = 0) }
          (x ++ p.2.1) (s.pc + 2)))

/-- INC and DEC (R154, R167, R168): carry of INC exactly at the largest word; of DEC by the polarity against 1; B is not written. -/
def Obligations.IncDecStepAccumulator : Prop :=
  ∀ (x : BitVec 6) (s : State),
    Completes (.inc x) [x ++ 0o16#6] [.alu .inc, .incPc] s
      (finished { s with a := s.a + 1, carry := decide (s.a.toNat = 2 ^ 12 - 1), zero := decide (s.a + 1 = 0) }
        (x ++ 0o16#6) (s.pc + 1)) ∧
    Completes (.dec x) [x ++ 0o17#6] [.alu .dec, .incPc] s
      (finished { s with a := s.a - 1, carry := compareCarry s.polarity s.a 1, zero := decide (s.a = 1) }
        (x ++ 0o17#6) (s.pc + 1))

/-- RLC and RRC (R153, R169, R170): the circular rotations of the twelve bits, carry the bit rotated out, the old carry unread. -/
def Obligations.CircularRotates : Prop :=
  ∀ (x : BitVec 6) (s : State),
    Completes (.rlc x) [x ++ 0o30#6] [.alu .rlc, .incPc] s
      (finished { s with a := s.a.rotateLeft 1, carry := s.a.msb, zero := decide (s.a = 0) }
        (x ++ 0o30#6) (s.pc + 1)) ∧
    Completes (.rrc x) [x ++ 0o31#6] [.alu .rrc, .incPc] s
      (finished { s with a := s.a.rotateRight 1, carry := s.a.getLsbD 0, zero := decide (s.a = 0) }
        (x ++ 0o31#6) (s.pc + 1))

/-- RAL and RAR (R153, R171, R172): the thirteen bits made of carry and A rotate by one place; zero from the new A. -/
def Obligations.RotatesThroughCarry : Prop :=
  ∀ (x : BitVec 6) (s : State),
    (∃ a c, Completes (.ral x) [x ++ 0o32#6] [.alu .ral, .incPc] s
        (finished { s with a := a, carry := c, zero := decide (a = 0) } (x ++ 0o32#6) (s.pc + 1)) ∧
      (BitVec.ofBool c ++ a : BitVec 13) = (BitVec.ofBool s.carry ++ s.a : BitVec 13).rotateLeft 1) ∧
    (∃ a c, Completes (.rar x) [x ++ 0o33#6] [.alu .rar, .incPc] s
        (finished { s with a := a, carry := c, zero := decide (a = 0) } (x ++ 0o33#6) (s.pc + 1)) ∧
      (BitVec.ofBool c ++ a : BitVec 13) = (BitVec.ofBool s.carry ++ s.a : BitVec 13).rotateRight 1)

/-- The flags of the ALU under either polarity (R178): zero from the result, for compare from equality; carry by family; compare
leaves A. -/
def Obligations.AluFlagsByFamily : Prop :=
  ∀ (pol : Polarity) (a b : Word) (c : Bool),
    (∀ f, f ≠ .cmp → (aluOut pol f a b c).zero = decide ((aluOut pol f a b c).a = 0)) ∧
    (aluOut pol .cmp a b c).zero = decide (a = b) ∧ (aluOut pol .cmp a b c).a = a ∧
    (aluOut pol .add a b c).carry = decide (2 ^ 12 ≤ a.toNat + b.toNat) ∧
    (aluOut pol .inc a b c).carry = decide (2 ^ 12 ≤ a.toNat + 1) ∧
    (aluOut pol .sub a b c).carry = compareCarry pol a b ∧
    (aluOut pol .cmp a b c).carry = compareCarry pol a b ∧
    (aluOut pol .dec a b c).carry = compareCarry pol a 1 ∧
    (∀ f ∈ [AluFn.and, .or, .xor], (aluOut pol f a b c).carry = false) ∧
    (∀ f ∈ [AluFn.rlc, .ral], (aluOut pol f a b c).carry = a.getLsbD 11) ∧
    (∀ f ∈ [AluFn.rrc, .rar], (aluOut pol f a b c).carry = a.getLsbD 0)

/-- Subtracting after adding the same operand restores A (R177), under either polarity for the ALU and for the instruction pairs
ADD, SUB at one address and ADI, SUI with one immediate. -/
def Obligations.SubAfterAddRestores : Prop :=
  (∀ (pol : Polarity) (a b : Word) (c c' : Bool),
    (aluOut pol .sub (aluOut pol .add a b c).a b c').a = a) ∧
  (∀ (x y : BitVec 6) (v : Word) (s : State),
    ∃ t u, exec (.add x v) s = .next t ∧ exec (.sub y v) t = .next u ∧ u.a = s.a) ∧
  (∀ (x y : BitVec 6) (v : Word) (s : State),
    ∃ t u, exec (.adi x v) s = .next t ∧ exec (.sui y v) t = .next u ∧ u.a = s.a)

/-- "N + 1 RALs restore A and carry", and as many RARs (corner cases of R171 and R172). -/
def Obligations.ThirteenRotatesRestore : Prop :=
  ∀ (pol : Polarity) (b : Word) (p : Word × Bool),
    (fun q : Word × Bool => ((aluOut pol .ral q.1 b q.2).a, (aluOut pol .ral q.1 b q.2).carry))^[13] p = p ∧
    (fun q : Word × Bool => ((aluOut pol .rar q.1 b q.2).a, (aluOut pol .rar q.1 b q.2).carry))^[13] p = p

/-- A jump on carry after a compare, with memory or with an immediate, tests the unsigned order: under NOT_BORROW JC jumps exactly when
A >= operand and JNC exactly when A < operand, under BORROW the reverse (42_alu R178). -/
def Obligations.CompareThenJumpOnCarry : Prop :=
  ∀ (x y : BitVec 6) (v target : Word) (s : State),
    ∀ p ∈ [(Instr.cmp x v, s.memRead v.toNat), (Instr.cpi x v, v)],
      ∃ t, exec p.1 s = .next t ∧
        (∃ u, exec (.jc y target) t = .next u ∧
          u.pc = if compareCarry s.polarity s.a p.2 then target else s.pc + 4) ∧
        (∃ u, exec (.jnc y target) t = .next u ∧
          u.pc = if compareCarry s.polarity s.a p.2 then s.pc + 4 else target)

/-! ### Control transfer and system -/

/-- JMP (R190): PC becomes the whole operand word. -/
def Obligations.JmpLoadsPc : Prop :=
  ∀ (x : BitVec 6) (addr : Word) (s : State),
    Completes (.jmp x addr) [x ++ 0o40#6, addr] [.incPc, .read .pc .pc] s (finished s (x ++ 0o40#6) addr)

/-- JC, JNC, JZ, JNZ (R191 to R194): the target if the condition holds, else the word after the operand; no flag changes. -/
def Obligations.ConditionalJumps : Prop :=
  ∀ (x : BitVec 6) (addr : Word) (s : State),
    ∀ p ∈ [(Instr.jc x addr, 0o41#6, Cond.c, s.carry = true), (Instr.jnc x addr, 0o42#6, Cond.nc, s.carry = false),
           (Instr.jz x addr, 0o43#6, Cond.z, s.zero = true), (Instr.jnz x addr, 0o44#6, Cond.nz, s.zero = false)],
      (p.2.2.2 → Completes p.1 [x ++ p.2.1, addr] [.incPc, .jumpIf p.2.2.1] s (finished s (x ++ p.2.1) addr)) ∧
      (¬ p.2.2.2 →
        Completes p.1 [x ++ p.2.1, addr] [.incPc, .jumpIf p.2.2.1] s (finished s (x ++ p.2.1) (s.pc + 2)))

/-- CALL (R195): the word after the operand, unreduced, goes to the slot 0o77; every other word reads as before; MAR and PC become
the target. -/
def Obligations.CallSavesReturnAddress : Prop :=
  ∀ (x : BitVec 6) (addr : Word) (s : State), s.mem.wf = true →
    ∃ t, Completes (.call x addr) [x ++ 0o45#6, addr] [.incPc, .read .pc .mar, .incPc, .writeCall, .loadPcMar] s t ∧
      t = finished { s with mar := addr, mem := t.mem } (x ++ 0o45#6) addr ∧
      ∀ j : Int, t.memRead j = if wrapR j = 0o77 then s.pc + 2 else s.memRead j

/-- RET (R196): PC becomes the word in the slot, which is left as it was. -/
def Obligations.RetLoadsPcFromSlot : Prop :=
  ∀ (x : BitVec 6) (s : State),
    Completes (.ret x) [x ++ 0o46#6] [.retPc] s (finished s (x ++ 0o46#6) (s.memRead 0o77))

/-- A RET in any state whose slot still holds what the CALL left returns to the word after the CALL (R195, R196, R197). -/
def Obligations.RetAfterCallReturns : Prop :=
  ∀ (x y : BitVec 6) (addr : Word) (s : State), s.mem.wf = true →
    ∃ t, exec (.call x addr) s = .next t ∧ t.a = s.a ∧ t.carry = s.carry ∧ t.zero = s.zero ∧
      ∀ t' : State, t'.memRead 0o77 = t.memRead 0o77 →
        ∃ u, exec (.ret y) t' = .next u ∧ u.pc = s.pc + 2 ∧ u.a = t'.a ∧ u.carry = t'.carry ∧ u.zero = t'.zero

/-- HLT (R211): PC advances, `halted` is set and `running` cleared; then no tick changes anything while no step is pending. -/
def Obligations.HltHalts : Prop :=
  ∀ (x : BitVec 6) (s : State),
    ∃ t, Completes (.hlt x) [x ++ 0o01#6] [.incPc, .halt] s t ∧
      t = finished { s with halted := true, running := false } (x ++ 0o01#6) (s.pc + 1) ∧
      (s.mPending = false → s.iActive = false → ∀ n, t.updates n = t)

/-- NOP (R210) and the 32 reserved indices (R76, R212): each advances PC, keeps its word in IR, and changes nothing else but what
every instruction cycle does. -/
def Obligations.NopAndReservedAdvancePc : Prop :=
  ∀ (x : BitVec 6) (s : State),
    ∀ p ∈ [(Instr.nop x, 0o00#6), (.nop07 x, 0o07#6), (.nop26 x, 0o26#6), (.nop27 x, 0o27#6), (.nop34 x, 0o34#6),
           (.nop35 x, 0o35#6), (.nop36 x, 0o36#6), (.nop37 x, 0o37#6), (.nop47 x, 0o47#6),
           (.nop50 x, 0o50#6), (.nop51 x, 0o51#6), (.nop52 x, 0o52#6), (.nop53 x, 0o53#6),
           (.nop54 x, 0o54#6), (.nop55 x, 0o55#6), (.nop56 x, 0o56#6), (.nop57 x, 0o57#6),
           (.nop60 x, 0o60#6), (.nop61 x, 0o61#6), (.nop62 x, 0o62#6), (.nop63 x, 0o63#6),
           (.nop64 x, 0o64#6), (.nop65 x, 0o65#6), (.nop66 x, 0o66#6), (.nop67 x, 0o67#6),
           (.nop70 x, 0o70#6), (.nop71 x, 0o71#6), (.nop72 x, 0o72#6), (.nop73 x, 0o73#6),
           (.nop74 x, 0o74#6), (.nop75 x, 0o75#6), (.nop76 x, 0o76#6), (.nop77 x, 0o77#6)],
      Completes p.1 [x ++ p.2] [.incPc] s (finished s (x ++ p.2) (s.pc + 1))

/-! ### Frames over all instructions -/

/-- What no instruction changes, and who alone changes what it does (10_state R22, R23, R26 to R31; 40_sequencer R121): power, the
step flags, the line latch and the switch word by none; the status by HLT; the flags by ALU instructions; A, B, MAR and memory by
those the register's rule names. PC falls through past the words, wrapping at 2^N (R25), but for the control transfers. -/
def Obligations.OnlyNamedInstructionsWrite : Prop :=
  ∀ (i : Instr) (s : State), ∃ t, exec i s = .next t ∧
    t.on = s.on ∧ t.mPending = s.mPending ∧ t.iActive = s.iActive ∧ t.prev = s.prev ∧ t.sw = s.sw ∧
    t.inbox = s.inbox ∧ t.reply = s.reply ∧ t.polarity = s.polarity ∧ t.stepUnit = s.stepUnit ∧
    t.ir = i.opcodeWord ∧ t.mc = 0 ∧ t.ic = s.ic + 1 ∧ t.label = .fetch ∧
    (i.opcode ≠ 0o01 → t.halted = s.halted ∧ t.running = s.running) ∧
    (i.opcode ∉ [0o10, 0o11, 0o12, 0o13, 0o14, 0o15, 0o16, 0o17, 0o20, 0o21, 0o22, 0o23, 0o24, 0o25,
        0o30, 0o31, 0o32, 0o33] → t.carry = s.carry ∧ t.zero = s.zero) ∧
    (i.opcode ∉ [0o02, 0o03, 0o05, 0o06, 0o10, 0o11, 0o12, 0o13, 0o14, 0o16, 0o17, 0o20, 0o21, 0o22, 0o23, 0o24,
        0o30, 0o31, 0o32, 0o33] → t.a = s.a) ∧
    (i.opcode ∉ [0o10, 0o11, 0o12, 0o13, 0o14, 0o15, 0o20, 0o21, 0o22, 0o23, 0o24, 0o25] → t.b = s.b) ∧
    (i.opcode ∉ [0o03, 0o04, 0o10, 0o11, 0o12, 0o13, 0o14, 0o15, 0o45] → t.mar = s.mar) ∧
    (i.opcode ∉ [0o04, 0o45] → ∀ j : Int, t.memRead j = s.memRead j) ∧
    (i.opcode ≠ 0o06 → t.keyIn = s.keyIn ∧ t.draws = s.draws) ∧
    (i.opcode ∉ [0o40, 0o41, 0o42, 0o43, 0o44, 0o45, 0o46] →
      t.pc.toNat = (s.pc.toNat + (encode i).length) % 2 ^ 12)

/-! ### Sequencer -/

/-- The three kinds of machine cycle (R112, R113, R114, R115). -/
def Obligations.MachineCyclesBySequence : Prop :=
  ∀ s : State,
    (s.mc = 0 → s.cycle = { s with ir := s.memRead s.pc.toNat, label := .decode, mc := 1 }) ∧
    (s.mc = 1 → s.cycle = { s with label := (entry (opcodeOf s.ir)).labels.getD 0 .fetch, mc := 2 }) ∧
    (∀ c m, s.mc = c + 2 → (entry (opcodeOf s.ir)).microOps[c]? = some m →
      (c + 1 < (entry (opcodeOf s.ir)).microOps.length →
        s.cycle = { m.apply s with label := (entry (opcodeOf s.ir)).labels.getD (c + 1) .fetch, mc := c + 3 }) ∧
      (c + 1 = (entry (opcodeOf s.ir)).microOps.length →
        s.cycle = { m.apply s with label := .fetch, mc := 0, ic := s.ic + 1 }))

/-- The micro-ops other than the ALU's, each with its one effect (R100 to R106, R108, R110). -/
def Obligations.MicroOpsHaveOneEffect : Prop :=
  ∀ s : State,
    MicroOp.incPc.apply s = { s with pc := BitVec.ofNat 12 ((s.pc.toNat + 1) % 2 ^ 12) } ∧
    (∀ x : AddrReg, ∀ v, v = s.mem.read ((match x with | .pc => s.pc | .mar => s.mar).toNat % 64) →
      (MicroOp.read x .a).apply s = { s with a := v } ∧ (MicroOp.read x .b).apply s = { s with b := v } ∧
      (MicroOp.read x .mar).apply s = { s with mar := v } ∧ (MicroOp.read x .pc).apply s = { s with pc := v }) ∧
    MicroOp.write.apply s = { s with mem := s.mem.write (s.mar.toNat % 64) s.a } ∧
    MicroOp.writeCall.apply s = { s with mem := s.mem.write 0o77 s.pc } ∧
    MicroOp.loadPcMar.apply s = { s with pc := s.mar } ∧
    MicroOp.retPc.apply s = { s with pc := s.mem.read 0o77 } ∧
    (∀ cond : Cond, (MicroOp.jumpIf cond).apply s =
      { s with pc := if (match cond with
                         | .c => s.carry
                         | .nc => !s.carry
                         | .z => s.zero
                         | .nz => !s.zero) = true
                     then s.mem.read (s.pc.toNat % 64)
                     else BitVec.ofNat 12 ((s.pc.toNat + 1) % 2 ^ 12) }) ∧
    MicroOp.inputSw.apply s = { s with a := s.sw } ∧
    MicroOp.halt.apply s = { s with halted := true, running := false }

/-- One tick (R117, R118): idle off, a cycle while running, a forced cycle and its consumption, a step on a halted
machine run or dropped by the open parameter STEP_WHEN_HALTED (the model's opaque constant, log 9), idle with nothing requested. -/
def Obligations.TickContract : Prop :=
  ∀ s : State,
    (s.on = false → s.update = s) ∧
    (s.on = true → s.running = true → s.update = s.cycle) ∧
    (s.on = true → s.running = false → (s.mPending = true ∨ s.iActive = true) → s.halted = false →
      s.update = { s.cycle with mPending := false,
                                iActive := s.cycle.iActive && decide (s.cycle.mc ≠ 0) && !s.cycle.halted }) ∧
    (s.on = true → s.running = false → (s.mPending = true ∨ s.iActive = true) → s.halted = true →
      s.update = if Config.stepWhenHalted = true
        then { s.cycle with mPending := false, iActive := false }
        else { s with mPending := false, iActive := false }) ∧
    (s.on = true → s.running = false → s.mPending = false → s.iActive = false → s.update = s)

/-- An instruction is its ticks (R120): from FETCH on an armed machine, `exec` of the instruction at PC answers exactly what its
machine cycles leave, one a tick, with no host action between. -/
def Obligations.InstructionIsItsTicks : Prop :=
  ∀ s : State, s.on = true → s.running = true → s.mc = 0 →
    exec (s.instrAt s.pc) s = .next (s.updates (cyclesOf (opcodeOf (s.memRead s.pc.toNat))))

/-- In the instruction-level view a step with the host idle, about to start an instruction, is the instruction's ticks, armed or forced,
and a forced one has consumed its step (R118, R120, R234); where a step is a tick, n steps are n ticks (R3, R119; log 1). -/
def Obligations.StepIsItsTicks : Prop :=
  ∀ s : State, s.inbox = [] →
    (s.stepUnit = .tick → ∀ n, Sys2Proof.core.run n s = .next (s.updates n)) ∧
    (s.stepUnit = .instruction → s.on = true → s.mc = 0 →
      (s.running = true ∨ (s.iActive = true ∧ s.halted = false)) →
      step s = .next (s.updates (cyclesOf (opcodeOf (s.memRead s.pc.toNat)))) ∧
        (s.running = false →
          (s.updates (cyclesOf (opcodeOf (s.memRead s.pc.toNat)))).mPending = false ∧
          (s.updates (cyclesOf (opcodeOf (s.memRead s.pc.toNat)))).iActive = false))

/-- An instruction step on a partly executed instruction runs its remaining cycles and no more (R118, R234): the step stays active
until the last of them, which ends the instruction cycle and the step. -/
def Obligations.InstructionStepFinishesPartlyRun : Prop :=
  ∀ (s : State) (r : Nat), s.on = true → s.running = false → s.iActive = true → s.halted = false → 1 ≤ s.mc →
    s.mc + (r + 1) = cyclesOf (opcodeOf s.ir) →
    (∀ k ≤ r, (s.updates k).iActive = true ∧ (s.updates k).mc = s.mc + k) ∧
    (s.updates (r + 1)).iActive = false ∧ (s.updates (r + 1)).mPending = false ∧
    (s.updates (r + 1)).mc = 0 ∧ (s.updates (r + 1)).ic = s.ic + 1 ∧
    (s.updates (r + 1)).update = s.updates (r + 1)

/-- The label is display state: no other field of the next tick depends on it (R36, R116). -/
def Obligations.LabelInfluencesNothing : Prop :=
  ∀ (s : State) (l : Label),
    { ({ s with label := l } : State).update with label := .fetch } = { s.update with label := .fetch }

/-! ### The step -/

/-- When the words at PC decode to `i`, the machine is at FETCH and the host is idle, `exec` of `i` is what an armed machine's steps
leave: one step in the instruction-level view, the instruction's machine cycles where a step is a tick. A forced one is that and the
consumption of the step (R3, R117, R118, R119, R120; log 1). -/
def Obligations.StepRunsDecodedInstruction : Prop :=
  ∀ (s : State) (i : Instr) (rest : List Word), s.inbox = [] → s.on = true → s.mc = 0 →
    decode [s.memRead s.pc.toNat, s.memRead (s.pc + 1).toNat] = .ok (i, rest) →
    (s.stepUnit = .instruction →
      (s.running = true → step s = exec i s) ∧
      (s.running = false → s.iActive = true → s.halted = false →
        ∃ t, exec i s = .next t ∧ step s = .next { t with mPending := false, iActive := false })) ∧
    (s.stepUnit = .tick →
      (s.running = true → Sys2Proof.core.run (cyclesOf i.opcode) s = exec i s) ∧
      (s.running = false → s.iActive = true → s.halted = false →
        ∃ t, exec i s = .next t ∧
          Sys2Proof.core.run (cyclesOf i.opcode) s = .next { t with mPending := false, iActive := false }))

/-- With a host action pending the step is that action (R62, R248), the oldest, taken off the inbox: its effect on the engine and its
reply, action by action, where what a scan, a tick, an import, an export and a construction do is said by the statements about
`scanInputs`, `update`, `importRam`, `exportText` and `construct`; the supplied key word stands until a KEY takes it (log 7). With none
pending the step is one tick (R3, R119), but where the instruction-level view starts an instruction (log 1, log 2). -/
def Obligations.StepIsHostActionOrTick : Prop :=
  ∀ s : State,
    (∀ rest : List HostAction,
      (∀ l, s.inbox = .scanInputs l :: rest →
        step s = .next { ({ s with inbox := rest } : State).scanInputs l with reply := none }) ∧
      (s.inbox = .update :: rest →
        step s = .next { ({ s with inbox := rest } : State).update with reply := none }) ∧
      (∀ a, s.inbox = .getWordAt a :: rest →
        step s = .next { s with inbox := rest, reply := some (.word (s.mem.read (a % 64).toNat)) }) ∧
      (∀ a v, s.inbox = .putWordAt a v :: rest →
        step s = .next { s with inbox := rest, reply := none,
                                mem := s.mem.write (a % 64).toNat (BitVec.ofNat 12 (v % 4096).toNat) }) ∧
      (∀ text, s.inbox = .importRam text :: rest →
        step s = .next { s with inbox := rest, mem := (s.importRam text).mem,
                                reply := some (.imported (s.importResult text)) }) ∧
      (s.inbox = .exportRam :: rest →
        step s = .next { s with inbox := rest, reply := some (.text s.exportText) }) ∧
      (∀ w, s.inbox = .supplyKey w :: rest →
        step s = .next { s with inbox := rest, reply := none, keyIn := some w }) ∧
      (s.inbox = .construct :: rest →
        step s = .next { s.construct with inbox := rest, reply := none })) ∧
    (s.inbox = [] →
      (s.stepUnit = .tick ∨ s.mc ≠ 0 ∨ s.on = false ∨ s.running = false ∧ (s.iActive = false ∨ s.halted = true)) →
      step s = .next s.update)

/-- No step faults and none is refused (R220): every state, reachable or not, has a next state, in which the parameters the machine runs
with are as they were (R20). -/
def Obligations.EveryStepGoesOn : Prop :=
  ∀ s : State, ∃ t, step s = .next t ∧ t.polarity = s.polarity ∧ t.stepUnit = s.stepUnit

/-! ### Memory and the host's accessors -/

/-- Reads and writes wrap the address, truncate the value and touch no other word (R51, R52, R53): for every integer address and
value. -/
def Obligations.HostWritesWrapAndTruncate : Prop :=
  ∀ (s : State) (a v : Int), s.mem.wf = true →
    (∀ j : Int, (s.putWordAt a v).getWordAt j =
      if j % 64 = a % 64 then BitVec.ofNat 12 (v % 4096).toNat else s.getWordAt j) ∧
    s.putWordAt a v = s.putWordAt (((a % 64) + 64) % 64) v ∧
    s.getWordAt a = s.getWordAt (((a % 64) + 64) % 64) ∧
    s.putWordAt a v = { s with mem := (s.putWordAt a v).mem } ∧
    (s.putWordAt a v).mem.wf = true

/-- Equal reads are equal memories (log 4, log 11): in the canonical form two memories that read the same at every address are the
same data, so the "what changed" signal reports no address only when memory is unchanged (R245). -/
def Obligations.CanonicalMemoriesAgree : Prop :=
  ∀ s t : State, s.mem.wf = true → t.mem.wf = true → changedAddrs s t = [] → s.mem = t.mem

/-! ### Reset, power and the front panel -/

/-- Reset (R235, R260): a rising reset line on a powered machine, the run line at any level. A, B, IR, MAR, the flags, memory and power
are as they were; a rising run line then arms the machine at PC 0, and one held high leaves it stopped (R222, R229, R232). With any
other lines beside it the reset acts first, and the scan goes on as if the reset line had been high before. -/
def Obligations.ResetClearsPcAndStatus : Prop :=
  ∀ s : State, s.on = true → s.prev.on = true → s.prev.reset = false →
    (∀ (run : Bool) (sw : Nat),
      s.scanInputs { lines := { onLine with reset := true, run := run }, switches := sw } =
        { s with pc := 0, halted := false, running := run && !s.prev.run, mPending := false, iActive := false, mc := 0,
                 label := .fetch, ic := 0, sw := BitVec.ofNat 12 sw,
                 prev := { onLine with reset := true, run := run } }) ∧
    (∀ (l : Inputs) (sw : Nat), l.lines.on = true → l.lines.reset = true →
      s.scanInputs l =
        ({ s.scanInputs { lines := { onLine with reset := true }, switches := sw } with
           prev := { s.prev with reset := true } } : State).scanInputs l)

/-- While powered off every line but `on` is ignored, a reset edge among them; only the switch word and the latch change (R261, and
R231 and R240 on a machine that is off). -/
def Obligations.LinesIgnoredWhileOff : Prop :=
  ∀ (s : State) (l : Inputs), s.on = false → s.prev.on = false → l.lines.on = false →
    s.scanInputs l = { s with sw := BitVec.ofNat 12 l.switches, prev := l.lines }

/-- Power-off (R231): a falling power line, whatever the other lines do; every other field but the two latches keeps its value, and
no tick runs. -/
def Obligations.PowerOffStops : Prop :=
  ∀ (s : State) (l : Inputs), s.prev.on = true → l.lines.on = false →
    s.scanInputs l = { s with on := false, running := false, mPending := false, iActive := false,
                              sw := BitVec.ofNat 12 l.switches, prev := l.lines } ∧
    ∀ n, (s.scanInputs l).updates n = s.scanInputs l

/-- Power-on (R230, R263), the run and reset lines at any level, the others low: flags and status cleared, the five registers and every
word of memory draws, whatever the draws are (log 6); then a reset edge sets PC to 0 and a run edge arms the machine (R222, R229). With
any other lines beside it the power line acts first, and the scan goes on as if it had been high before. -/
def Obligations.PowerOnDraws : Prop :=
  ∀ s : State, s.prev.on = false →
    (∀ (run reset : Bool) (sw : Nat),
      ∃ t, s.scanInputs { lines := { onLine with run := run, reset := reset }, switches := sw } = t ∧
        t = { s with a := Config.powerDraw s.draws .a, b := Config.powerDraw s.draws .b,
                     pc := if (reset && !s.prev.reset) = true then 0 else Config.powerDraw s.draws .pc,
                     ir := Config.powerDraw s.draws .ir, mar := Config.powerDraw s.draws .mar, mem := t.mem,
                     draws := s.draws + 1, carry := false, zero := false, on := true,
                     running := run && !s.prev.run, halted := false, mPending := false, iActive := false,
                     mc := 0, label := .fetch, ic := 0, sw := BitVec.ofNat 12 sw,
                     prev := { onLine with run := run, reset := reset } } ∧
        t.mem.wf = true ∧ ∀ j : Int, t.memRead j = Config.powerDraw s.draws (.mem (wrapR j))) ∧
    (∀ (l : Inputs) (sw : Nat), l.lines.on = true →
      s.scanInputs l =
        ({ s.scanInputs { lines := onLine, switches := sw } with prev := { s.prev with on := true } } : State).scanInputs l)

/-- Construction (R40, R264): a new engine, powered off, its flags, status, counters, line latch and switch word cleared, its registers and
memory draws (log 6), the model's own fields as they were (log 2). And `State.reset` is what construction, a scan with `on` high and a
scan with `on` and `reset` high leave (R40, R260, R263, R264), but for the draws and the model's own fields, whose values are the
model's choice (log 1, log 3, log 4, log 5, log 8). -/
def Obligations.ResetStateIsTheBootState : Prop :=
  ∀ s : State,
    (∃ t, s.construct = t ∧
      t = { s with a := Config.powerDraw s.draws .a, b := Config.powerDraw s.draws .b,
                   pc := Config.powerDraw s.draws .pc, ir := Config.powerDraw s.draws .ir,
                   mar := Config.powerDraw s.draws .mar, mem := t.mem, draws := s.draws + 1,
                   carry := false, zero := false, on := false, running := false, halted := false,
                   mPending := false, iActive := false, mc := 0, label := .fetch, ic := 0, sw := 0,
                   prev := ⟨false, false, false, false, false, false, false, false, false⟩ } ∧
      t.mem.wf = true ∧ ∀ j : Int, t.memRead j = Config.powerDraw s.draws (.mem (wrapR j))) ∧
    { (s.construct.scanInputs { lines := onLine, switches := 0 }).scanInputs
        { lines := { onLine with reset := true }, switches := 0 } with
      a := 0, b := 0, ir := 0, mar := 0, mem := [], keyIn := none, draws := 0, inbox := [], reply := none,
      polarity := .notBorrow, stepUnit := .tick } =
    State.reset

/-- The run line (R232) on a powered machine with no power edge, the other lines at any level: low disarms; a rising edge arms and drops
pending steps unless the machine is halted, which a reset edge in the same scan ends first (R222); a line held high, or an edge while
halted, leaves `running` as it was, or low after a reset edge. -/
def Obligations.RunLineArmsOnEdge : Prop :=
  ∀ (s : State) (l : Inputs), s.on = true → s.prev.on = true → l.lines.on = true →
    (l.lines.run = false → (s.scanInputs l).running = false) ∧
    (l.lines.run = true → s.prev.run = false →
      (s.halted = false ∨ (l.lines.reset = true ∧ s.prev.reset = false)) →
      (s.scanInputs l).running = true ∧ (s.scanInputs l).mPending = false ∧ (s.scanInputs l).iActive = false) ∧
    (l.lines.run = true → (s.prev.run = true ∨ s.halted = true) → (l.lines.reset = true → s.prev.reset = true) →
      (s.scanInputs l).running = s.running) ∧
    (l.lines.run = true → s.prev.run = true → l.lines.reset = true → s.prev.reset = false →
      (s.scanInputs l).running = false)

/-- "Asserting m_step and calling scanInputs+update twice without deasserting m_step between calls must NOT execute two machine
cycles" (R233): the first pair runs one cycle, the second changes nothing. -/
def Obligations.MachineStepFiresOncePerEdge : Prop :=
  ∀ (s : State) (sw : Nat), s.on = true → s.prev.on = true → s.prev.mStep = false → s.halted = false →
    s.iActive = false →
    ∃ t, (s.scanInputs { lines := { onLine with mStep := true }, switches := sw }).update = t ∧
      t = { ({ s with sw := BitVec.ofNat 12 sw, running := false, mPending := true,
                      prev := { onLine with mStep := true } } : State).cycle with mPending := false } ∧
      (t.scanInputs { lines := { onLine with mStep := true }, switches := sw }).update = t

/-- An instruction-step edge on a stopped machine at FETCH runs one whole instruction on the ticks that follow, then nothing more
(R234). -/
def Obligations.InstructionStepRunsOneInstruction : Prop :=
  ∀ (s : State) (sw : Nat), s.on = true → s.prev.on = true → s.prev.iStep = false → s.halted = false → s.mc = 0 →
    ∃ s1 t, s1 = s.scanInputs { lines := { onLine with iStep := true }, switches := sw } ∧
      exec (s1.instrAt s1.pc) s1 = .next t ∧
      s1.updates (cyclesOf (opcodeOf (s1.memRead s1.pc.toNat))) = { t with mPending := false, iActive := false } ∧
      ∀ n, ({ t with mPending := false, iActive := false } : State).updates n =
        { t with mPending := false, iActive := false }

/-- Examine, examine next, deposit and deposit next on a stopped machine, each alone, and all four and both step lines in one scan, in the
order of R229 (60_exceptions section 4; the spec supplies their effects from general knowledge, D26, log 19). -/
def Obligations.PanelExaminesAndDeposits : Prop :=
  ∀ (s : State) (sw : Nat), s.on = true → s.prev.on = true → s.running = false →
    (s.prev.examine = false →
      s.scanInputs { lines := { onLine with examine := true }, switches := sw } =
        { s with pc := BitVec.ofNat 12 sw, mc := 0, label := .fetch, mPending := false, iActive := false,
                 sw := BitVec.ofNat 12 sw, prev := { onLine with examine := true } }) ∧
    (s.prev.examineNext = false →
      s.scanInputs { lines := { onLine with examineNext := true }, switches := sw } =
        { s with pc := s.pc + 1, mc := 0, label := .fetch, mPending := false, iActive := false,
                 sw := BitVec.ofNat 12 sw, prev := { onLine with examineNext := true } }) ∧
    (s.prev.deposit = false →
      s.scanInputs { lines := { onLine with deposit := true }, switches := sw } =
        { s with mem := s.mem.write (s.pc.toNat % 64) (BitVec.ofNat 12 sw),
                 sw := BitVec.ofNat 12 sw, prev := { onLine with deposit := true } }) ∧
    (s.prev.depositNext = false →
      s.scanInputs { lines := { onLine with depositNext := true }, switches := sw } =
        { s with pc := s.pc + 1, mem := s.mem.write ((s.pc + 1).toNat % 64) (BitVec.ofNat 12 sw),
                 sw := BitVec.ofNat 12 sw, prev := { onLine with depositNext := true } }) ∧
    (∀ l : Lines, l = { Lines.low with on := true, examine := true, examineNext := true, deposit := true,
                                       depositNext := true, mStep := true, iStep := true } →
      s.prev = onLine →
      s.scanInputs { lines := l, switches := sw } =
        { s with pc := BitVec.ofNat 12 sw + 1 + 1, mc := 0, label := .fetch, mPending := true, iActive := true,
                 mem := (s.mem.write ((BitVec.ofNat 12 sw + 1 : Word).toNat % 64) (BitVec.ofNat 12 sw)).write
                   ((BitVec.ofNat 12 sw + 1 + 1 : Word).toNat % 64) (BitVec.ofNat 12 sw),
                 sw := BitVec.ofNat 12 sw, prev := l })

/-- While the machine runs with `run` held high, examine, deposit and the step lines change nothing; only the two latches move (R225,
R229). -/
def Obligations.PanelIgnoredWhileRunning : Prop :=
  ∀ (s : State) (l : Inputs), s.on = true → s.prev.on = true → s.running = true → s.prev.run = true →
    l.lines.on = true → l.lines.run = true → l.lines.reset = false →
    s.scanInputs l = { s with sw := BitVec.ofNat 12 l.switches, prev := l.lines }

/-- "Idempotent under repeated calls with unchanged inputs" (R229): a second scan of the same inputs changes nothing. -/
def Obligations.ScanIsIdempotent : Prop :=
  ∀ (s : State) (l : Inputs), (s.scanInputs l).scanInputs l = s.scanInputs l

/-- Only a reset edge, a power-on edge or a new construction ends the halted state, over every step and host action (R211, R232,
R247). -/
def Obligations.HaltedEndsOnlyByResetOrPower : Prop :=
  ∀ s t : State, s.halted = true → step s = .next t → t.halted = false →
    (∃ l rest, s.inbox = .scanInputs l :: rest ∧
      ((l.lines.reset = true ∧ s.prev.reset = false) ∨ (l.lines.on = true ∧ s.prev.on = false))) ∨
    ∃ rest, s.inbox = .construct :: rest

/-! ### Import and export -/

/-- Import (R242): what it answers, that it changes nothing unless it answers OK, and that it then sets the given words from address
0 on, zeros after them, and nothing but memory. -/
def Obligations.ImportLoadsAndPads : Prop :=
  ∀ (s : State) (text : List Char),
    (s.on = false → s.importResult text = .notPoweredOn) ∧
    (s.on = true → s.running = true → s.importResult text = .running) ∧
    (s.on = true → s.running = false →
      (parseText text = [] → s.importResult text = .noValidData) ∧
      (64 < (parseText text).length → s.importResult text = .addressOutOfRange) ∧
      (1 ≤ (parseText text).length → (parseText text).length ≤ 64 → s.importResult text = .ok)) ∧
    (s.importResult text ≠ .ok → s.importRam text = s) ∧
    (s.importResult text = .ok →
      s.importRam text = { s with mem := (s.importRam text).mem } ∧ (s.importRam text).mem.wf = true ∧
      ∀ j : Int, (s.importRam text).memRead j = (parseText text).getD (wrapR j) 0)

/-- Parsing (R243): the words are the digits taken by fours, a shorter last group dropped, and characters that are no octal digit
make no difference. -/
def Obligations.ParseGroupsOctalDigits : Prop :=
  ∀ text : List Char,
    parseText text = parseText (text.filter fun c => decide ('0' ≤ c ∧ c ≤ '7')) ∧
    (parseText text).length = (text.filter fun c => decide ('0' ≤ c ∧ c ≤ '7')).length / 4 ∧
    ∀ k < (parseText text).length, ∀ d : Fin 4 → Char,
      (∀ n : Fin 4, (text.filter fun c => decide ('0' ≤ c ∧ c ≤ '7'))[4 * k + n.val]? = some (d n)) →
      ((parseText text).getD k 0).toNat =
        512 * ((d 0).toNat - 48) + 64 * ((d 1).toNat - 48) + 8 * ((d 2).toNat - 48) + ((d 3).toNat - 48)

/-- Importing the exported text answers OK and restores the state exactly (R244). -/
def Obligations.ImportOfExportRestores : Prop :=
  ∀ s : State, s.mem.wf = true → s.on = true → s.running = false →
    s.importResult s.exportText = .ok ∧ s.importRam s.exportText = s

/-- The exported text is 319 characters (R244, V-HOST-10): word k is four octal digits from place 5k on, most significant first,
and between two words stands one line break after every eighth word, else one space; so nothing trails. -/
def Obligations.ExportHasEightLines : Prop :=
  ∀ s : State, s.exportText.length = 319 ∧
    (∀ k < 64, ∀ d < 4,
      s.exportText[5 * k + d]? = some (Char.ofNat (48 + (s.mem.read k).toNat / 8 ^ (3 - d) % 8))) ∧
    (∀ k < 63, s.exportText[5 * k + 4]? = some (if (k + 1) % 8 = 0 then '\n' else ' '))

/-! ### Invariants -/

/-- The state after reset is sound, and its line latch agrees with its power status. -/
def Obligations.ResetStateIsSound : Prop := State.reset.Sound ∧ State.reset.LatchSound

/-- Every step, host actions among them, keeps the soundness of the state: the memory's canonical form, halted implies not running
(R38), running or off implies no pending step, mc in its range (R34), the label naming the next cycle (R116). -/
def Obligations.SoundnessIsKept : Prop :=
  ∀ s t : State, s.Sound → step s = .next t → t.Sound

/-- Every step of a sound state keeps the line latch: the power status is the power line's level at the last scan, and `running`
needs the run line high at the last scan (R33, R229, R232). -/
def Obligations.LineLatchIsKept : Prop :=
  ∀ s t : State, s.Sound → s.LatchSound → step s = .next t → t.LatchSound
end

