-- ==== Sys2Proof/Laws/Decode.lean ====
section
/-! SUPPORT. The fields of an opcode word (30_encoding R71), and the decoder in the terms of an instruction's table row. -/

namespace Sys2Proof

/-- The bits of an opcode word: the opcode below, the ignored field above (R71). -/
theorem getLsbD_opcodeWord (x op : BitVec 6) (i : Nat) :
    (x ++ op : Word).getLsbD i = if i < 6 then op.getLsbD i else x.getLsbD (i - 6) :=
  BitVec.getLsbD_append

@[simp] theorem opcode_field_append (x op : BitVec 6) : (x ++ op : Word).extractLsb' 0 6 = op := by
  apply BitVec.eq_of_getLsbD_eq
  intro i hi
  rw [BitVec.getLsbD_extractLsb', getLsbD_opcodeWord]; simp [hi]

@[simp] theorem ignored_field_append (x op : BitVec 6) : (x ++ op : Word).extractLsb' 6 6 = x := by
  apply BitVec.eq_of_getLsbD_eq
  intro i hi
  rw [BitVec.getLsbD_extractLsb', getLsbD_opcodeWord]; simp [hi]

/-- A word is its ignored field above its opcode field. -/
theorem fields_append (w : Word) : (w.extractLsb' 6 6 ++ w.extractLsb' 0 6 : Word) = w := by
  apply BitVec.eq_of_getLsbD_eq
  intro i hi
  rw [getLsbD_opcodeWord, BitVec.getLsbD_extractLsb', BitVec.getLsbD_extractLsb']
  by_cases h : i < 6
  · simp [h]
  · simp [h, show i - 6 < 6 by omega, show 6 + (i - 6) = i by omega]

/-- Decoding a word put together from its fields. -/
theorem decodeWords_append (x op : BitVec 6) (w1 : Word) : decodeWords (x ++ op) w1 = decodeFields x op w1 := by
  unfold decodeWords; rw [opcode_field_append, ignored_field_append]

@[simp] theorem opcodeOf_append (x op : BitVec 6) : Machine.opcodeOf (x ++ op) = op := opcode_field_append x op

/-- The opcode index is the word modulo the table size (R74). -/
theorem opcodeOf_toNat (w : Word) : (Machine.opcodeOf w).toNat = w.toNat % 64 := by
  simp [Machine.opcodeOf, BitVec.extractLsb'_toNat]

@[simp] theorem opcodeWord_opcode (i : Instr) : Machine.opcodeOf i.opcodeWord = i.opcode := opcode_field_append _ _

end Sys2Proof
end

