-- ==== Sys2Proof/Laws/Flags.lean ====
section
/-! SUPPORT. What the ALU functions compute, as bit-vector arithmetic and comparisons (42_alu R150 to R154). -/

namespace Sys2Proof.Machine

@[simp] theorem aluResult_a (r : Word) (c : Bool) : (aluResult r c).a = r := rfl
@[simp] theorem aluResult_carry (r : Word) (c : Bool) : (aluResult r c).carry = c := rfl
@[simp] theorem aluResult_zero (r : Word) (c : Bool) : (aluResult r c).zero = decide (r = 0) := rfl

/-- The exact sum narrowed is the wrapping sum (R150). -/
theorem ofNat_add_toNat (a b : Word) : BitVec.ofNat 12 (a.toNat + b.toNat) = a + b := by
  apply BitVec.eq_of_toNat_eq; simp

/-- The exact difference narrowed is the wrapping difference (R151). -/
theorem ofNat_subExact (a b : Word) : BitVec.ofNat 12 (subExact a b) = a - b := by
  apply BitVec.eq_of_toNat_eq; simp [subExact, BitVec.toNat_sub, Nat.add_comm]

/-- The carry of a difference is its comparison (R151). -/
theorem subCarry_subExact (pol : Polarity) (a b : Word) :
    subCarry pol (subExact a b) =
      match pol with
      | .notBorrow => decide (b ≤ a)
      | .borrow => decide (a < b) := by
  have ha := a.isLt
  have hb := b.isLt
  cases pol <;> simp only [subCarry, subExact, BitVec.le_def, BitVec.lt_def] <;>
    exact decide_eq_decide.mpr (by omega)

theorem aluAdd_a (a b : Word) : (aluAdd a b).a = a + b := ofNat_add_toNat a b

theorem aluSub_a (pol : Polarity) (a b : Word) : (aluSub pol a b).a = a - b := ofNat_subExact a b

/-- The difference is zero exactly when the operands are equal (R151). -/
theorem aluSub_zero (pol : Polarity) (a b : Word) : (aluSub pol a b).zero = decide (a = b) := by
  simp only [aluSub, aluResult_zero, ofNat_subExact]
  refine decide_eq_decide.mpr ⟨fun h => ?_, fun h => by simp [h]⟩
  have : a - b + b = 0 + b := by rw [h]
  simpa using this

@[simp] theorem aluCmp_a (pol : Polarity) (a b : Word) : (aluCmp pol a b).a = a := rfl
@[simp] theorem aluCmp_carry (pol : Polarity) (a b : Word) : (aluCmp pol a b).carry = (aluSub pol a b).carry := rfl
@[simp] theorem aluCmp_zero (pol : Polarity) (a b : Word) : (aluCmp pol a b).zero = (aluSub pol a b).zero := rfl

/-- Bit by bit, the circular left rotation moves each bit up and the top bit to the bottom (R153). -/
theorem aluRlc_a (a : Word) : (aluRlc a).a = a.rotateLeft 1 := by
  apply BitVec.eq_of_getLsbD_eq
  intro i hi
  have h : ∀ (c : Bool), (carryLow c).getLsbD i = (c && decide (i = 0)) := by
    intro c; cases c
    · simp [carryLow]
    · interval_cases i <;> decide
  simp only [aluRlc, aluResult_a, BitVec.getLsbD_or, h, BitVec.getLsbD_shiftLeft, BitVec.getLsbD_rotateLeft]
  by_cases h0 : i = 0
  · subst h0; simp
  · simp [h0, hi, show ¬ i < 1 by omega]

/-- The circular right rotation (R153). -/
theorem aluRrc_a (a : Word) : (aluRrc a).a = a.rotateRight 1 := by
  apply BitVec.eq_of_getLsbD_eq
  intro i hi
  have h : ∀ (c : Bool), (carryHigh c).getLsbD i = (c && decide (i = 11)) := by
    intro c; cases c
    · simp [carryHigh]
    · interval_cases i <;> decide
  simp only [aluRrc, aluResult_a, BitVec.getLsbD_or, h, BitVec.getLsbD_ushiftRight, BitVec.getLsbD_rotateRight]
  by_cases h11 : i = 11
  · subst h11; simp
  · have : i < 11 := by omega
    simp [h11, this, Nat.add_comm]

end Sys2Proof.Machine
end

