-- ==== Sys2Proof/Laws/Mem.lean ====
section
/-! SUPPORT. The memory operations: address wrap, read after write, and the canonical form that every operation keeps. -/

namespace Sys2Proof.Machine

/-- `wrapR` is the non-negative remainder (R8, R51). -/
theorem wrapR_eq (a : Int) : wrapR a = (a % 64).toNat := by
  unfold wrapR Config.ramWords; omega

theorem wrapR_lt (a : Int) : wrapR a < Config.ramWords := by
  rw [wrapR_eq]; unfold Config.ramWords; omega

@[simp] theorem wrapR_natCast (n : Nat) : wrapR (n : Int) = n % 64 := by
  rw [wrapR_eq]; omega

namespace Mem

/-- A word below every listed address is unlisted. -/
theorem read_of_wfFrom_lt {m : Mem} {lo i : Nat} (h : m.wfFrom lo = true) (hi : i < lo) :
    m.read i = unlistedWord := by
  induction m generalizing lo with
  | nil => rfl
  | cons p rest ih =>
    obtain ⟨j, w⟩ := p
    simp only [wfFrom, Bool.and_eq_true, decide_eq_true_eq] at h
    obtain ⟨⟨⟨h1, -⟩, -⟩, h4⟩ := h
    have hne : j ≠ i := by omega
    simp only [read, hne, if_false]
    exact ih h4 (by omega)

theorem wfFrom_mono {m : Mem} {lo lo' : Nat} (h : m.wfFrom lo = true) (hle : lo' ≤ lo) :
    m.wfFrom lo' = true := by
  cases m with
  | nil => rfl
  | cons p rest =>
    obtain ⟨j, w⟩ := p
    simp only [wfFrom, Bool.and_eq_true, decide_eq_true_eq] at h ⊢
    exact ⟨⟨⟨by omega, h.1.1.2⟩, h.1.2⟩, h.2⟩

/-- Read after write, at the written word and elsewhere (R52). -/
theorem read_write_from {m : Mem} {lo : Nat} (h : m.wfFrom lo = true) (i j : Nat) (v : Word) :
    (m.write i v).read j = if j = i then v else m.read j := by
  induction m generalizing lo with
  | nil =>
    by_cases hv : v = unlistedWord
    · simp only [write, hv, if_true, read]; split <;> rfl
    · simp only [write, hv, if_false, read, eq_comm]
  | cons p rest ih =>
    obtain ⟨k, w⟩ := p
    simp only [wfFrom, Bool.and_eq_true, decide_eq_true_eq] at h
    obtain ⟨⟨⟨h1, -⟩, -⟩, h4⟩ := h
    have hrest := fun {x} (hx : x < k + 1) => read_of_wfFrom_lt h4 hx
    have ih := ih h4
    by_cases hlt : i < k
    · by_cases hv : v = unlistedWord
      · simp only [write, hlt, hv, if_true]
        split
        · next hj =>
          subst hj
          have hne : k ≠ j := by omega
          simp only [read, hne, if_false, hrest (show j < k + 1 by omega)]
        · rfl
      · simp only [write, hlt, hv, if_true, if_false, read]
        by_cases hij : i = j
        · simp only [hij, if_true]
        · simp only [hij, if_false, Ne.symm hij]
    · by_cases hik : i = k
      · subst hik
        by_cases hv : v = unlistedWord
        · simp only [write, hlt, hv, if_true, if_false, read]
          by_cases hij : i = j
          · subst hij; simp only [if_true, hrest (Nat.lt_succ_self i)]
          · simp only [hij, if_false, Ne.symm hij]
        · simp only [write, hlt, hv, if_true, if_false, read]
          by_cases hij : i = j
          · simp only [hij, if_true]
          · simp only [hij, if_false, Ne.symm hij]
      · simp only [write, hlt, hik, if_false, read]
        by_cases hkj : k = j
        · subst hkj; simp only [if_true, Ne.symm hik, if_false]
        · simp only [hkj, if_false, ih]

theorem read_write {m : Mem} (h : m.wf = true) (i j : Nat) (v : Word) :
    (m.write i v).read j = if j = i then v else m.read j := read_write_from h i j v

theorem wfFrom_write {m : Mem} {lo i : Nat} (h : m.wfFrom lo = true) (hlo : lo ≤ i)
    (hi : i < Config.ramWords) (v : Word) : (m.write i v).wfFrom lo = true := by
  induction m generalizing lo with
  | nil => by_cases hv : v = unlistedWord <;> simp [write, wfFrom, hv, hlo, hi]
  | cons p rest ih =>
    obtain ⟨k, w⟩ := p
    have h' := h
    simp only [wfFrom, Bool.and_eq_true, decide_eq_true_eq] at h
    obtain ⟨⟨⟨h1, h2⟩, h3⟩, h4⟩ := h
    unfold write
    split
    · next hlt =>
      split
      · exact h'
      · next hv =>
        simp only [wfFrom, Bool.and_eq_true, decide_eq_true_eq]
        exact ⟨⟨⟨hlo, hi⟩, hv⟩, ⟨⟨by omega, h2⟩, h3⟩, h4⟩
    · split
      · next hik =>
        subst hik
        split
        · exact wfFrom_mono h4 (by omega)
        · next hv =>
          simp only [wfFrom, Bool.and_eq_true, decide_eq_true_eq]
          exact ⟨⟨⟨hlo, hi⟩, hv⟩, h4⟩
      · simp only [wfFrom, Bool.and_eq_true, decide_eq_true_eq]
        exact ⟨⟨⟨h1, h2⟩, h3⟩, ih h4 (by omega)⟩

/-- A write keeps the canonical form. -/
theorem wf_write {m : Mem} {i : Nat} (h : m.wf = true) (hi : i < Config.ramWords) (v : Word) :
    (m.write i v).wf = true := wfFrom_write h (Nat.zero_le i) hi v

theorem wfFrom_fill (i : Nat) (ws : List Word) (h : i + ws.length ≤ Config.ramWords) :
    (fill i ws).wfFrom i = true := by
  induction ws generalizing i with
  | nil => rfl
  | cons w rest ih =>
    simp only [List.length_cons] at h
    have hr := ih (i + 1) (by omega)
    unfold fill
    split
    · exact wfFrom_mono hr (by omega)
    · next hw =>
      simp only [wfFrom, Bool.and_eq_true, decide_eq_true_eq]
      exact ⟨⟨⟨Nat.le_refl i, by omega⟩, hw⟩, hr⟩

/-- Filling the RAM gives the canonical form. -/
theorem wf_fill {ws : List Word} (h : ws.length ≤ Config.ramWords) : (fill 0 ws).wf = true :=
  wfFrom_fill 0 ws (by omega)

theorem read_fill_from (i j : Nat) (ws : List Word) (h : i + ws.length ≤ Config.ramWords) :
    (fill i ws).read (i + j) = ws.getD j unlistedWord := by
  induction ws generalizing i j with
  | nil => rfl
  | cons w rest ih =>
    simp only [List.length_cons] at h
    have hwf := wfFrom_fill (i + 1) rest (by omega)
    cases j with
    | zero =>
      unfold fill
      split
      · next hw => simp [read_of_wfFrom_lt hwf (Nat.lt_succ_self i), hw]
      · simp [read]
    | succ j =>
      have hr := ih (i + 1) j (by omega)
      have hadd : i + (j + 1) = i + 1 + j := by omega
      have hne : i ≠ i + 1 + j := by omega
      unfold fill
      split <;> simp [read, hadd, hr, hne]

/-- What a filled RAM reads as. -/
theorem read_fill {ws : List Word} (h : ws.length ≤ Config.ramWords) (j : Nat) :
    (fill 0 ws).read j = ws.getD j unlistedWord := by
  have := read_fill_from 0 j ws (by omega)
  rwa [Nat.zero_add] at this

end Mem

/-- The memory of `State.reset` has the canonical form. -/
theorem reset_mem_wf : State.reset.mem.wf = true := rfl

/-- `MemWrite` keeps the canonical form. -/
theorem memWrite_mem_wf {s : State} (h : s.mem.wf = true) (i : Int) (v : Word) :
    (s.memWrite i v).mem.wf = true := Mem.wf_write h (wrapR_lt i) v

/-- The draws of a power-on or a construction give the canonical form. -/
theorem drawAll_mem_wf (s : State) : s.drawAll.mem.wf = true := Mem.wf_fill (by simp)

/-- An import gives the canonical form. -/
theorem fill_padded_wf {ws : List Word} (h : ws.length ≤ Config.ramWords) :
    (Mem.fill 0 (ws ++ List.replicate (Config.ramWords - ws.length) 0)).wf = true :=
  Mem.wf_fill (by simp; omega)

end Sys2Proof.Machine
end

