-- ==== Sys2Proof/Laws/State.lean ====
section
/-! SUPPORT. What each named update does to each field of the state: one lemma per field per update, true by unfolding, so that no
later proof unfolds a record update. -/

namespace Sys2Proof.Machine.State

variable (s : State)

/-! ### `memWrite` -/

@[simp] theorem memWrite_a (i : Int) (v : Word) : (s.memWrite i v).a = s.a := rfl
@[simp] theorem memWrite_b (i : Int) (v : Word) : (s.memWrite i v).b = s.b := rfl
@[simp] theorem memWrite_pc (i : Int) (v : Word) : (s.memWrite i v).pc = s.pc := rfl
@[simp] theorem memWrite_ir (i : Int) (v : Word) : (s.memWrite i v).ir = s.ir := rfl
@[simp] theorem memWrite_mar (i : Int) (v : Word) : (s.memWrite i v).mar = s.mar := rfl
@[simp] theorem memWrite_carry (i : Int) (v : Word) : (s.memWrite i v).carry = s.carry := rfl
@[simp] theorem memWrite_zero (i : Int) (v : Word) : (s.memWrite i v).zero = s.zero := rfl
@[simp] theorem memWrite_mem (i : Int) (v : Word) : (s.memWrite i v).mem = s.mem.write (wrapR i) v := rfl
@[simp] theorem memWrite_on (i : Int) (v : Word) : (s.memWrite i v).on = s.on := rfl
@[simp] theorem memWrite_running (i : Int) (v : Word) : (s.memWrite i v).running = s.running := rfl
@[simp] theorem memWrite_halted (i : Int) (v : Word) : (s.memWrite i v).halted = s.halted := rfl
@[simp] theorem memWrite_mPending (i : Int) (v : Word) : (s.memWrite i v).mPending = s.mPending := rfl
@[simp] theorem memWrite_iActive (i : Int) (v : Word) : (s.memWrite i v).iActive = s.iActive := rfl
@[simp] theorem memWrite_prev (i : Int) (v : Word) : (s.memWrite i v).prev = s.prev := rfl
@[simp] theorem memWrite_sw (i : Int) (v : Word) : (s.memWrite i v).sw = s.sw := rfl
@[simp] theorem memWrite_mc (i : Int) (v : Word) : (s.memWrite i v).mc = s.mc := rfl
@[simp] theorem memWrite_ic (i : Int) (v : Word) : (s.memWrite i v).ic = s.ic := rfl
@[simp] theorem memWrite_label (i : Int) (v : Word) : (s.memWrite i v).label = s.label := rfl
@[simp] theorem memWrite_keyIn (i : Int) (v : Word) : (s.memWrite i v).keyIn = s.keyIn := rfl
@[simp] theorem memWrite_draws (i : Int) (v : Word) : (s.memWrite i v).draws = s.draws := rfl
@[simp] theorem memWrite_inbox (i : Int) (v : Word) : (s.memWrite i v).inbox = s.inbox := rfl
@[simp] theorem memWrite_reply (i : Int) (v : Word) : (s.memWrite i v).reply = s.reply := rfl
@[simp] theorem memWrite_polarity (i : Int) (v : Word) : (s.memWrite i v).polarity = s.polarity := rfl
@[simp] theorem memWrite_stepUnit (i : Int) (v : Word) : (s.memWrite i v).stepUnit = s.stepUnit := rfl

/-! ### `setA` -/

@[simp] theorem setA_a (v : Word) : (s.setA v).a = v := rfl
@[simp] theorem setA_b (v : Word) : (s.setA v).b = s.b := rfl
@[simp] theorem setA_pc (v : Word) : (s.setA v).pc = s.pc := rfl
@[simp] theorem setA_ir (v : Word) : (s.setA v).ir = s.ir := rfl
@[simp] theorem setA_mar (v : Word) : (s.setA v).mar = s.mar := rfl
@[simp] theorem setA_carry (v : Word) : (s.setA v).carry = s.carry := rfl
@[simp] theorem setA_zero (v : Word) : (s.setA v).zero = s.zero := rfl
@[simp] theorem setA_mem (v : Word) : (s.setA v).mem = s.mem := rfl
@[simp] theorem setA_on (v : Word) : (s.setA v).on = s.on := rfl
@[simp] theorem setA_running (v : Word) : (s.setA v).running = s.running := rfl
@[simp] theorem setA_halted (v : Word) : (s.setA v).halted = s.halted := rfl
@[simp] theorem setA_mPending (v : Word) : (s.setA v).mPending = s.mPending := rfl
@[simp] theorem setA_iActive (v : Word) : (s.setA v).iActive = s.iActive := rfl
@[simp] theorem setA_prev (v : Word) : (s.setA v).prev = s.prev := rfl
@[simp] theorem setA_sw (v : Word) : (s.setA v).sw = s.sw := rfl
@[simp] theorem setA_mc (v : Word) : (s.setA v).mc = s.mc := rfl
@[simp] theorem setA_ic (v : Word) : (s.setA v).ic = s.ic := rfl
@[simp] theorem setA_label (v : Word) : (s.setA v).label = s.label := rfl
@[simp] theorem setA_keyIn (v : Word) : (s.setA v).keyIn = s.keyIn := rfl
@[simp] theorem setA_draws (v : Word) : (s.setA v).draws = s.draws := rfl
@[simp] theorem setA_inbox (v : Word) : (s.setA v).inbox = s.inbox := rfl
@[simp] theorem setA_reply (v : Word) : (s.setA v).reply = s.reply := rfl
@[simp] theorem setA_polarity (v : Word) : (s.setA v).polarity = s.polarity := rfl
@[simp] theorem setA_stepUnit (v : Word) : (s.setA v).stepUnit = s.stepUnit := rfl

/-! ### `setB` -/

@[simp] theorem setB_a (v : Word) : (s.setB v).a = s.a := rfl
@[simp] theorem setB_b (v : Word) : (s.setB v).b = v := rfl
@[simp] theorem setB_pc (v : Word) : (s.setB v).pc = s.pc := rfl
@[simp] theorem setB_ir (v : Word) : (s.setB v).ir = s.ir := rfl
@[simp] theorem setB_mar (v : Word) : (s.setB v).mar = s.mar := rfl
@[simp] theorem setB_carry (v : Word) : (s.setB v).carry = s.carry := rfl
@[simp] theorem setB_zero (v : Word) : (s.setB v).zero = s.zero := rfl
@[simp] theorem setB_mem (v : Word) : (s.setB v).mem = s.mem := rfl
@[simp] theorem setB_on (v : Word) : (s.setB v).on = s.on := rfl
@[simp] theorem setB_running (v : Word) : (s.setB v).running = s.running := rfl
@[simp] theorem setB_halted (v : Word) : (s.setB v).halted = s.halted := rfl
@[simp] theorem setB_mPending (v : Word) : (s.setB v).mPending = s.mPending := rfl
@[simp] theorem setB_iActive (v : Word) : (s.setB v).iActive = s.iActive := rfl
@[simp] theorem setB_prev (v : Word) : (s.setB v).prev = s.prev := rfl
@[simp] theorem setB_sw (v : Word) : (s.setB v).sw = s.sw := rfl
@[simp] theorem setB_mc (v : Word) : (s.setB v).mc = s.mc := rfl
@[simp] theorem setB_ic (v : Word) : (s.setB v).ic = s.ic := rfl
@[simp] theorem setB_label (v : Word) : (s.setB v).label = s.label := rfl
@[simp] theorem setB_keyIn (v : Word) : (s.setB v).keyIn = s.keyIn := rfl
@[simp] theorem setB_draws (v : Word) : (s.setB v).draws = s.draws := rfl
@[simp] theorem setB_inbox (v : Word) : (s.setB v).inbox = s.inbox := rfl
@[simp] theorem setB_reply (v : Word) : (s.setB v).reply = s.reply := rfl
@[simp] theorem setB_polarity (v : Word) : (s.setB v).polarity = s.polarity := rfl
@[simp] theorem setB_stepUnit (v : Word) : (s.setB v).stepUnit = s.stepUnit := rfl

/-! ### `setPc` -/

@[simp] theorem setPc_a (v : Word) : (s.setPc v).a = s.a := rfl
@[simp] theorem setPc_b (v : Word) : (s.setPc v).b = s.b := rfl
@[simp] theorem setPc_pc (v : Word) : (s.setPc v).pc = v := rfl
@[simp] theorem setPc_ir (v : Word) : (s.setPc v).ir = s.ir := rfl
@[simp] theorem setPc_mar (v : Word) : (s.setPc v).mar = s.mar := rfl
@[simp] theorem setPc_carry (v : Word) : (s.setPc v).carry = s.carry := rfl
@[simp] theorem setPc_zero (v : Word) : (s.setPc v).zero = s.zero := rfl
@[simp] theorem setPc_mem (v : Word) : (s.setPc v).mem = s.mem := rfl
@[simp] theorem setPc_on (v : Word) : (s.setPc v).on = s.on := rfl
@[simp] theorem setPc_running (v : Word) : (s.setPc v).running = s.running := rfl
@[simp] theorem setPc_halted (v : Word) : (s.setPc v).halted = s.halted := rfl
@[simp] theorem setPc_mPending (v : Word) : (s.setPc v).mPending = s.mPending := rfl
@[simp] theorem setPc_iActive (v : Word) : (s.setPc v).iActive = s.iActive := rfl
@[simp] theorem setPc_prev (v : Word) : (s.setPc v).prev = s.prev := rfl
@[simp] theorem setPc_sw (v : Word) : (s.setPc v).sw = s.sw := rfl
@[simp] theorem setPc_mc (v : Word) : (s.setPc v).mc = s.mc := rfl
@[simp] theorem setPc_ic (v : Word) : (s.setPc v).ic = s.ic := rfl
@[simp] theorem setPc_label (v : Word) : (s.setPc v).label = s.label := rfl
@[simp] theorem setPc_keyIn (v : Word) : (s.setPc v).keyIn = s.keyIn := rfl
@[simp] theorem setPc_draws (v : Word) : (s.setPc v).draws = s.draws := rfl
@[simp] theorem setPc_inbox (v : Word) : (s.setPc v).inbox = s.inbox := rfl
@[simp] theorem setPc_reply (v : Word) : (s.setPc v).reply = s.reply := rfl
@[simp] theorem setPc_polarity (v : Word) : (s.setPc v).polarity = s.polarity := rfl
@[simp] theorem setPc_stepUnit (v : Word) : (s.setPc v).stepUnit = s.stepUnit := rfl

/-! ### `setMar` -/

@[simp] theorem setMar_a (v : Word) : (s.setMar v).a = s.a := rfl
@[simp] theorem setMar_b (v : Word) : (s.setMar v).b = s.b := rfl
@[simp] theorem setMar_pc (v : Word) : (s.setMar v).pc = s.pc := rfl
@[simp] theorem setMar_ir (v : Word) : (s.setMar v).ir = s.ir := rfl
@[simp] theorem setMar_mar (v : Word) : (s.setMar v).mar = v := rfl
@[simp] theorem setMar_carry (v : Word) : (s.setMar v).carry = s.carry := rfl
@[simp] theorem setMar_zero (v : Word) : (s.setMar v).zero = s.zero := rfl
@[simp] theorem setMar_mem (v : Word) : (s.setMar v).mem = s.mem := rfl
@[simp] theorem setMar_on (v : Word) : (s.setMar v).on = s.on := rfl
@[simp] theorem setMar_running (v : Word) : (s.setMar v).running = s.running := rfl
@[simp] theorem setMar_halted (v : Word) : (s.setMar v).halted = s.halted := rfl
@[simp] theorem setMar_mPending (v : Word) : (s.setMar v).mPending = s.mPending := rfl
@[simp] theorem setMar_iActive (v : Word) : (s.setMar v).iActive = s.iActive := rfl
@[simp] theorem setMar_prev (v : Word) : (s.setMar v).prev = s.prev := rfl
@[simp] theorem setMar_sw (v : Word) : (s.setMar v).sw = s.sw := rfl
@[simp] theorem setMar_mc (v : Word) : (s.setMar v).mc = s.mc := rfl
@[simp] theorem setMar_ic (v : Word) : (s.setMar v).ic = s.ic := rfl
@[simp] theorem setMar_label (v : Word) : (s.setMar v).label = s.label := rfl
@[simp] theorem setMar_keyIn (v : Word) : (s.setMar v).keyIn = s.keyIn := rfl
@[simp] theorem setMar_draws (v : Word) : (s.setMar v).draws = s.draws := rfl
@[simp] theorem setMar_inbox (v : Word) : (s.setMar v).inbox = s.inbox := rfl
@[simp] theorem setMar_reply (v : Word) : (s.setMar v).reply = s.reply := rfl
@[simp] theorem setMar_polarity (v : Word) : (s.setMar v).polarity = s.polarity := rfl
@[simp] theorem setMar_stepUnit (v : Word) : (s.setMar v).stepUnit = s.stepUnit := rfl

/-! ### `fetched` -/

@[simp] theorem fetched_a (x op : BitVec 6) : (s.fetched x op).a = s.a := rfl
@[simp] theorem fetched_b (x op : BitVec 6) : (s.fetched x op).b = s.b := rfl
@[simp] theorem fetched_pc (x op : BitVec 6) : (s.fetched x op).pc = s.pc := rfl
@[simp] theorem fetched_ir (x op : BitVec 6) : (s.fetched x op).ir = x ++ op := rfl
@[simp] theorem fetched_mar (x op : BitVec 6) : (s.fetched x op).mar = s.mar := rfl
@[simp] theorem fetched_carry (x op : BitVec 6) : (s.fetched x op).carry = s.carry := rfl
@[simp] theorem fetched_zero (x op : BitVec 6) : (s.fetched x op).zero = s.zero := rfl
@[simp] theorem fetched_mem (x op : BitVec 6) : (s.fetched x op).mem = s.mem := rfl
@[simp] theorem fetched_on (x op : BitVec 6) : (s.fetched x op).on = s.on := rfl
@[simp] theorem fetched_running (x op : BitVec 6) : (s.fetched x op).running = s.running := rfl
@[simp] theorem fetched_halted (x op : BitVec 6) : (s.fetched x op).halted = s.halted := rfl
@[simp] theorem fetched_mPending (x op : BitVec 6) : (s.fetched x op).mPending = s.mPending := rfl
@[simp] theorem fetched_iActive (x op : BitVec 6) : (s.fetched x op).iActive = s.iActive := rfl
@[simp] theorem fetched_prev (x op : BitVec 6) : (s.fetched x op).prev = s.prev := rfl
@[simp] theorem fetched_sw (x op : BitVec 6) : (s.fetched x op).sw = s.sw := rfl
@[simp] theorem fetched_mc (x op : BitVec 6) : (s.fetched x op).mc = s.mc := rfl
@[simp] theorem fetched_ic (x op : BitVec 6) : (s.fetched x op).ic = s.ic := rfl
@[simp] theorem fetched_label (x op : BitVec 6) : (s.fetched x op).label = s.label := rfl
@[simp] theorem fetched_keyIn (x op : BitVec 6) : (s.fetched x op).keyIn = s.keyIn := rfl
@[simp] theorem fetched_draws (x op : BitVec 6) : (s.fetched x op).draws = s.draws := rfl
@[simp] theorem fetched_inbox (x op : BitVec 6) : (s.fetched x op).inbox = s.inbox := rfl
@[simp] theorem fetched_reply (x op : BitVec 6) : (s.fetched x op).reply = s.reply := rfl
@[simp] theorem fetched_polarity (x op : BitVec 6) : (s.fetched x op).polarity = s.polarity := rfl
@[simp] theorem fetched_stepUnit (x op : BitVec 6) : (s.fetched x op).stepUnit = s.stepUnit := rfl

/-! ### `setAlu` -/

@[simp] theorem setAlu_a (o : AluOut) : (s.setAlu o).a = o.a := rfl
@[simp] theorem setAlu_b (o : AluOut) : (s.setAlu o).b = s.b := rfl
@[simp] theorem setAlu_pc (o : AluOut) : (s.setAlu o).pc = s.pc := rfl
@[simp] theorem setAlu_ir (o : AluOut) : (s.setAlu o).ir = s.ir := rfl
@[simp] theorem setAlu_mar (o : AluOut) : (s.setAlu o).mar = s.mar := rfl
@[simp] theorem setAlu_carry (o : AluOut) : (s.setAlu o).carry = o.carry := rfl
@[simp] theorem setAlu_zero (o : AluOut) : (s.setAlu o).zero = o.zero := rfl
@[simp] theorem setAlu_mem (o : AluOut) : (s.setAlu o).mem = s.mem := rfl
@[simp] theorem setAlu_on (o : AluOut) : (s.setAlu o).on = s.on := rfl
@[simp] theorem setAlu_running (o : AluOut) : (s.setAlu o).running = s.running := rfl
@[simp] theorem setAlu_halted (o : AluOut) : (s.setAlu o).halted = s.halted := rfl
@[simp] theorem setAlu_mPending (o : AluOut) : (s.setAlu o).mPending = s.mPending := rfl
@[simp] theorem setAlu_iActive (o : AluOut) : (s.setAlu o).iActive = s.iActive := rfl
@[simp] theorem setAlu_prev (o : AluOut) : (s.setAlu o).prev = s.prev := rfl
@[simp] theorem setAlu_sw (o : AluOut) : (s.setAlu o).sw = s.sw := rfl
@[simp] theorem setAlu_mc (o : AluOut) : (s.setAlu o).mc = s.mc := rfl
@[simp] theorem setAlu_ic (o : AluOut) : (s.setAlu o).ic = s.ic := rfl
@[simp] theorem setAlu_label (o : AluOut) : (s.setAlu o).label = s.label := rfl
@[simp] theorem setAlu_keyIn (o : AluOut) : (s.setAlu o).keyIn = s.keyIn := rfl
@[simp] theorem setAlu_draws (o : AluOut) : (s.setAlu o).draws = s.draws := rfl
@[simp] theorem setAlu_inbox (o : AluOut) : (s.setAlu o).inbox = s.inbox := rfl
@[simp] theorem setAlu_reply (o : AluOut) : (s.setAlu o).reply = s.reply := rfl
@[simp] theorem setAlu_polarity (o : AluOut) : (s.setAlu o).polarity = s.polarity := rfl
@[simp] theorem setAlu_stepUnit (o : AluOut) : (s.setAlu o).stepUnit = s.stepUnit := rfl

/-! ### `alu` -/

@[simp] theorem alu_a (f : AluFn) : (s.alu f).a = (aluOut s.polarity f s.a s.b s.carry).a := rfl
@[simp] theorem alu_b (f : AluFn) : (s.alu f).b = s.b := rfl
@[simp] theorem alu_pc (f : AluFn) : (s.alu f).pc = s.pc := rfl
@[simp] theorem alu_ir (f : AluFn) : (s.alu f).ir = s.ir := rfl
@[simp] theorem alu_mar (f : AluFn) : (s.alu f).mar = s.mar := rfl
@[simp] theorem alu_carry (f : AluFn) : (s.alu f).carry = (aluOut s.polarity f s.a s.b s.carry).carry := rfl
@[simp] theorem alu_zero (f : AluFn) : (s.alu f).zero = (aluOut s.polarity f s.a s.b s.carry).zero := rfl
@[simp] theorem alu_mem (f : AluFn) : (s.alu f).mem = s.mem := rfl
@[simp] theorem alu_on (f : AluFn) : (s.alu f).on = s.on := rfl
@[simp] theorem alu_running (f : AluFn) : (s.alu f).running = s.running := rfl
@[simp] theorem alu_halted (f : AluFn) : (s.alu f).halted = s.halted := rfl
@[simp] theorem alu_mPending (f : AluFn) : (s.alu f).mPending = s.mPending := rfl
@[simp] theorem alu_iActive (f : AluFn) : (s.alu f).iActive = s.iActive := rfl
@[simp] theorem alu_prev (f : AluFn) : (s.alu f).prev = s.prev := rfl
@[simp] theorem alu_sw (f : AluFn) : (s.alu f).sw = s.sw := rfl
@[simp] theorem alu_mc (f : AluFn) : (s.alu f).mc = s.mc := rfl
@[simp] theorem alu_ic (f : AluFn) : (s.alu f).ic = s.ic := rfl
@[simp] theorem alu_label (f : AluFn) : (s.alu f).label = s.label := rfl
@[simp] theorem alu_keyIn (f : AluFn) : (s.alu f).keyIn = s.keyIn := rfl
@[simp] theorem alu_draws (f : AluFn) : (s.alu f).draws = s.draws := rfl
@[simp] theorem alu_inbox (f : AluFn) : (s.alu f).inbox = s.inbox := rfl
@[simp] theorem alu_reply (f : AluFn) : (s.alu f).reply = s.reply := rfl
@[simp] theorem alu_polarity (f : AluFn) : (s.alu f).polarity = s.polarity := rfl
@[simp] theorem alu_stepUnit (f : AluFn) : (s.alu f).stepUnit = s.stepUnit := rfl

/-! ### `goto` -/

@[simp] theorem goto_a (n : Nat) (l : Label) : (s.goto n l).a = s.a := rfl
@[simp] theorem goto_b (n : Nat) (l : Label) : (s.goto n l).b = s.b := rfl
@[simp] theorem goto_pc (n : Nat) (l : Label) : (s.goto n l).pc = s.pc := rfl
@[simp] theorem goto_ir (n : Nat) (l : Label) : (s.goto n l).ir = s.ir := rfl
@[simp] theorem goto_mar (n : Nat) (l : Label) : (s.goto n l).mar = s.mar := rfl
@[simp] theorem goto_carry (n : Nat) (l : Label) : (s.goto n l).carry = s.carry := rfl
@[simp] theorem goto_zero (n : Nat) (l : Label) : (s.goto n l).zero = s.zero := rfl
@[simp] theorem goto_mem (n : Nat) (l : Label) : (s.goto n l).mem = s.mem := rfl
@[simp] theorem goto_on (n : Nat) (l : Label) : (s.goto n l).on = s.on := rfl
@[simp] theorem goto_running (n : Nat) (l : Label) : (s.goto n l).running = s.running := rfl
@[simp] theorem goto_halted (n : Nat) (l : Label) : (s.goto n l).halted = s.halted := rfl
@[simp] theorem goto_mPending (n : Nat) (l : Label) : (s.goto n l).mPending = s.mPending := rfl
@[simp] theorem goto_iActive (n : Nat) (l : Label) : (s.goto n l).iActive = s.iActive := rfl
@[simp] theorem goto_prev (n : Nat) (l : Label) : (s.goto n l).prev = s.prev := rfl
@[simp] theorem goto_sw (n : Nat) (l : Label) : (s.goto n l).sw = s.sw := rfl
@[simp] theorem goto_mc (n : Nat) (l : Label) : (s.goto n l).mc = n := rfl
@[simp] theorem goto_ic (n : Nat) (l : Label) : (s.goto n l).ic = s.ic := rfl
@[simp] theorem goto_label (n : Nat) (l : Label) : (s.goto n l).label = l := rfl
@[simp] theorem goto_keyIn (n : Nat) (l : Label) : (s.goto n l).keyIn = s.keyIn := rfl
@[simp] theorem goto_draws (n : Nat) (l : Label) : (s.goto n l).draws = s.draws := rfl
@[simp] theorem goto_inbox (n : Nat) (l : Label) : (s.goto n l).inbox = s.inbox := rfl
@[simp] theorem goto_reply (n : Nat) (l : Label) : (s.goto n l).reply = s.reply := rfl
@[simp] theorem goto_polarity (n : Nat) (l : Label) : (s.goto n l).polarity = s.polarity := rfl
@[simp] theorem goto_stepUnit (n : Nat) (l : Label) : (s.goto n l).stepUnit = s.stepUnit := rfl

/-! ### `endInstr` -/

@[simp] theorem endInstr_a : (s.endInstr).a = s.a := rfl
@[simp] theorem endInstr_b : (s.endInstr).b = s.b := rfl
@[simp] theorem endInstr_pc : (s.endInstr).pc = s.pc := rfl
@[simp] theorem endInstr_ir : (s.endInstr).ir = s.ir := rfl
@[simp] theorem endInstr_mar : (s.endInstr).mar = s.mar := rfl
@[simp] theorem endInstr_carry : (s.endInstr).carry = s.carry := rfl
@[simp] theorem endInstr_zero : (s.endInstr).zero = s.zero := rfl
@[simp] theorem endInstr_mem : (s.endInstr).mem = s.mem := rfl
@[simp] theorem endInstr_on : (s.endInstr).on = s.on := rfl
@[simp] theorem endInstr_running : (s.endInstr).running = s.running := rfl
@[simp] theorem endInstr_halted : (s.endInstr).halted = s.halted := rfl
@[simp] theorem endInstr_mPending : (s.endInstr).mPending = s.mPending := rfl
@[simp] theorem endInstr_iActive : (s.endInstr).iActive = s.iActive := rfl
@[simp] theorem endInstr_prev : (s.endInstr).prev = s.prev := rfl
@[simp] theorem endInstr_sw : (s.endInstr).sw = s.sw := rfl
@[simp] theorem endInstr_mc : (s.endInstr).mc = 0 := rfl
@[simp] theorem endInstr_ic : (s.endInstr).ic = s.ic + 1 := rfl
@[simp] theorem endInstr_label : (s.endInstr).label = .fetch := rfl
@[simp] theorem endInstr_keyIn : (s.endInstr).keyIn = s.keyIn := rfl
@[simp] theorem endInstr_draws : (s.endInstr).draws = s.draws := rfl
@[simp] theorem endInstr_inbox : (s.endInstr).inbox = s.inbox := rfl
@[simp] theorem endInstr_reply : (s.endInstr).reply = s.reply := rfl
@[simp] theorem endInstr_polarity : (s.endInstr).polarity = s.polarity := rfl
@[simp] theorem endInstr_stepUnit : (s.endInstr).stepUnit = s.stepUnit := rfl

/-! ### `halt` -/

@[simp] theorem halt_a : (s.halt).a = s.a := rfl
@[simp] theorem halt_b : (s.halt).b = s.b := rfl
@[simp] theorem halt_pc : (s.halt).pc = s.pc := rfl
@[simp] theorem halt_ir : (s.halt).ir = s.ir := rfl
@[simp] theorem halt_mar : (s.halt).mar = s.mar := rfl
@[simp] theorem halt_carry : (s.halt).carry = s.carry := rfl
@[simp] theorem halt_zero : (s.halt).zero = s.zero := rfl
@[simp] theorem halt_mem : (s.halt).mem = s.mem := rfl
@[simp] theorem halt_on : (s.halt).on = s.on := rfl
@[simp] theorem halt_running : (s.halt).running = false := rfl
@[simp] theorem halt_halted : (s.halt).halted = true := rfl
@[simp] theorem halt_mPending : (s.halt).mPending = s.mPending := rfl
@[simp] theorem halt_iActive : (s.halt).iActive = s.iActive := rfl
@[simp] theorem halt_prev : (s.halt).prev = s.prev := rfl
@[simp] theorem halt_sw : (s.halt).sw = s.sw := rfl
@[simp] theorem halt_mc : (s.halt).mc = s.mc := rfl
@[simp] theorem halt_ic : (s.halt).ic = s.ic := rfl
@[simp] theorem halt_label : (s.halt).label = s.label := rfl
@[simp] theorem halt_keyIn : (s.halt).keyIn = s.keyIn := rfl
@[simp] theorem halt_draws : (s.halt).draws = s.draws := rfl
@[simp] theorem halt_inbox : (s.halt).inbox = s.inbox := rfl
@[simp] theorem halt_reply : (s.halt).reply = s.reply := rfl
@[simp] theorem halt_polarity : (s.halt).polarity = s.polarity := rfl
@[simp] theorem halt_stepUnit : (s.halt).stepUnit = s.stepUnit := rfl

/-! ### `cancelSteps` -/

@[simp] theorem cancelSteps_a : (s.cancelSteps).a = s.a := rfl
@[simp] theorem cancelSteps_b : (s.cancelSteps).b = s.b := rfl
@[simp] theorem cancelSteps_pc : (s.cancelSteps).pc = s.pc := rfl
@[simp] theorem cancelSteps_ir : (s.cancelSteps).ir = s.ir := rfl
@[simp] theorem cancelSteps_mar : (s.cancelSteps).mar = s.mar := rfl
@[simp] theorem cancelSteps_carry : (s.cancelSteps).carry = s.carry := rfl
@[simp] theorem cancelSteps_zero : (s.cancelSteps).zero = s.zero := rfl
@[simp] theorem cancelSteps_mem : (s.cancelSteps).mem = s.mem := rfl
@[simp] theorem cancelSteps_on : (s.cancelSteps).on = s.on := rfl
@[simp] theorem cancelSteps_running : (s.cancelSteps).running = s.running := rfl
@[simp] theorem cancelSteps_halted : (s.cancelSteps).halted = s.halted := rfl
@[simp] theorem cancelSteps_mPending : (s.cancelSteps).mPending = false := rfl
@[simp] theorem cancelSteps_iActive : (s.cancelSteps).iActive = false := rfl
@[simp] theorem cancelSteps_prev : (s.cancelSteps).prev = s.prev := rfl
@[simp] theorem cancelSteps_sw : (s.cancelSteps).sw = s.sw := rfl
@[simp] theorem cancelSteps_mc : (s.cancelSteps).mc = s.mc := rfl
@[simp] theorem cancelSteps_ic : (s.cancelSteps).ic = s.ic := rfl
@[simp] theorem cancelSteps_label : (s.cancelSteps).label = s.label := rfl
@[simp] theorem cancelSteps_keyIn : (s.cancelSteps).keyIn = s.keyIn := rfl
@[simp] theorem cancelSteps_draws : (s.cancelSteps).draws = s.draws := rfl
@[simp] theorem cancelSteps_inbox : (s.cancelSteps).inbox = s.inbox := rfl
@[simp] theorem cancelSteps_reply : (s.cancelSteps).reply = s.reply := rfl
@[simp] theorem cancelSteps_polarity : (s.cancelSteps).polarity = s.polarity := rfl
@[simp] theorem cancelSteps_stepUnit : (s.cancelSteps).stepUnit = s.stepUnit := rfl

/-! ### `fetchCycle` -/

@[simp] theorem fetchCycle_a : (s.fetchCycle).a = s.a := rfl
@[simp] theorem fetchCycle_b : (s.fetchCycle).b = s.b := rfl
@[simp] theorem fetchCycle_pc : (s.fetchCycle).pc = s.pc := rfl
@[simp] theorem fetchCycle_ir : (s.fetchCycle).ir = s.memRead s.pc.toNat := rfl
@[simp] theorem fetchCycle_mar : (s.fetchCycle).mar = s.mar := rfl
@[simp] theorem fetchCycle_carry : (s.fetchCycle).carry = s.carry := rfl
@[simp] theorem fetchCycle_zero : (s.fetchCycle).zero = s.zero := rfl
@[simp] theorem fetchCycle_mem : (s.fetchCycle).mem = s.mem := rfl
@[simp] theorem fetchCycle_on : (s.fetchCycle).on = s.on := rfl
@[simp] theorem fetchCycle_running : (s.fetchCycle).running = s.running := rfl
@[simp] theorem fetchCycle_halted : (s.fetchCycle).halted = s.halted := rfl
@[simp] theorem fetchCycle_mPending : (s.fetchCycle).mPending = s.mPending := rfl
@[simp] theorem fetchCycle_iActive : (s.fetchCycle).iActive = s.iActive := rfl
@[simp] theorem fetchCycle_prev : (s.fetchCycle).prev = s.prev := rfl
@[simp] theorem fetchCycle_sw : (s.fetchCycle).sw = s.sw := rfl
@[simp] theorem fetchCycle_mc : (s.fetchCycle).mc = 1 := rfl
@[simp] theorem fetchCycle_ic : (s.fetchCycle).ic = s.ic := rfl
@[simp] theorem fetchCycle_label : (s.fetchCycle).label = .decode := rfl
@[simp] theorem fetchCycle_keyIn : (s.fetchCycle).keyIn = s.keyIn := rfl
@[simp] theorem fetchCycle_draws : (s.fetchCycle).draws = s.draws := rfl
@[simp] theorem fetchCycle_inbox : (s.fetchCycle).inbox = s.inbox := rfl
@[simp] theorem fetchCycle_reply : (s.fetchCycle).reply = s.reply := rfl
@[simp] theorem fetchCycle_polarity : (s.fetchCycle).polarity = s.polarity := rfl
@[simp] theorem fetchCycle_stepUnit : (s.fetchCycle).stepUnit = s.stepUnit := rfl

/-! ### `decodeCycle` -/

@[simp] theorem decodeCycle_a : (s.decodeCycle).a = s.a := rfl
@[simp] theorem decodeCycle_b : (s.decodeCycle).b = s.b := rfl
@[simp] theorem decodeCycle_pc : (s.decodeCycle).pc = s.pc := rfl
@[simp] theorem decodeCycle_ir : (s.decodeCycle).ir = s.ir := rfl
@[simp] theorem decodeCycle_mar : (s.decodeCycle).mar = s.mar := rfl
@[simp] theorem decodeCycle_carry : (s.decodeCycle).carry = s.carry := rfl
@[simp] theorem decodeCycle_zero : (s.decodeCycle).zero = s.zero := rfl
@[simp] theorem decodeCycle_mem : (s.decodeCycle).mem = s.mem := rfl
@[simp] theorem decodeCycle_on : (s.decodeCycle).on = s.on := rfl
@[simp] theorem decodeCycle_running : (s.decodeCycle).running = s.running := rfl
@[simp] theorem decodeCycle_halted : (s.decodeCycle).halted = s.halted := rfl
@[simp] theorem decodeCycle_mPending : (s.decodeCycle).mPending = s.mPending := rfl
@[simp] theorem decodeCycle_iActive : (s.decodeCycle).iActive = s.iActive := rfl
@[simp] theorem decodeCycle_prev : (s.decodeCycle).prev = s.prev := rfl
@[simp] theorem decodeCycle_sw : (s.decodeCycle).sw = s.sw := rfl
@[simp] theorem decodeCycle_mc : (s.decodeCycle).mc = 2 := rfl
@[simp] theorem decodeCycle_ic : (s.decodeCycle).ic = s.ic := rfl
@[simp] theorem decodeCycle_label : (s.decodeCycle).label = labelAt s.ir 2 := rfl
@[simp] theorem decodeCycle_keyIn : (s.decodeCycle).keyIn = s.keyIn := rfl
@[simp] theorem decodeCycle_draws : (s.decodeCycle).draws = s.draws := rfl
@[simp] theorem decodeCycle_inbox : (s.decodeCycle).inbox = s.inbox := rfl
@[simp] theorem decodeCycle_reply : (s.decodeCycle).reply = s.reply := rfl
@[simp] theorem decodeCycle_polarity : (s.decodeCycle).polarity = s.polarity := rfl
@[simp] theorem decodeCycle_stepUnit : (s.decodeCycle).stepUnit = s.stepUnit := rfl

/-! ### `consumeStep` -/

@[simp] theorem consumeStep_a : (s.consumeStep).a = s.a := rfl
@[simp] theorem consumeStep_b : (s.consumeStep).b = s.b := rfl
@[simp] theorem consumeStep_pc : (s.consumeStep).pc = s.pc := rfl
@[simp] theorem consumeStep_ir : (s.consumeStep).ir = s.ir := rfl
@[simp] theorem consumeStep_mar : (s.consumeStep).mar = s.mar := rfl
@[simp] theorem consumeStep_carry : (s.consumeStep).carry = s.carry := rfl
@[simp] theorem consumeStep_zero : (s.consumeStep).zero = s.zero := rfl
@[simp] theorem consumeStep_mem : (s.consumeStep).mem = s.mem := rfl
@[simp] theorem consumeStep_on : (s.consumeStep).on = s.on := rfl
@[simp] theorem consumeStep_running : (s.consumeStep).running = s.running := rfl
@[simp] theorem consumeStep_halted : (s.consumeStep).halted = s.halted := rfl
@[simp] theorem consumeStep_mPending : (s.consumeStep).mPending = false := rfl
@[simp] theorem consumeStep_iActive : (s.consumeStep).iActive = (s.iActive && decide (s.mc ≠ 0) && !s.halted) := rfl
@[simp] theorem consumeStep_prev : (s.consumeStep).prev = s.prev := rfl
@[simp] theorem consumeStep_sw : (s.consumeStep).sw = s.sw := rfl
@[simp] theorem consumeStep_mc : (s.consumeStep).mc = s.mc := rfl
@[simp] theorem consumeStep_ic : (s.consumeStep).ic = s.ic := rfl
@[simp] theorem consumeStep_label : (s.consumeStep).label = s.label := rfl
@[simp] theorem consumeStep_keyIn : (s.consumeStep).keyIn = s.keyIn := rfl
@[simp] theorem consumeStep_draws : (s.consumeStep).draws = s.draws := rfl
@[simp] theorem consumeStep_inbox : (s.consumeStep).inbox = s.inbox := rfl
@[simp] theorem consumeStep_reply : (s.consumeStep).reply = s.reply := rfl
@[simp] theorem consumeStep_polarity : (s.consumeStep).polarity = s.polarity := rfl
@[simp] theorem consumeStep_stepUnit : (s.consumeStep).stepUnit = s.stepUnit := rfl

/-! ### `doReset` -/

@[simp] theorem doReset_a : (s.doReset).a = s.a := rfl
@[simp] theorem doReset_b : (s.doReset).b = s.b := rfl
@[simp] theorem doReset_pc : (s.doReset).pc = 0 := rfl
@[simp] theorem doReset_ir : (s.doReset).ir = s.ir := rfl
@[simp] theorem doReset_mar : (s.doReset).mar = s.mar := rfl
@[simp] theorem doReset_carry : (s.doReset).carry = s.carry := rfl
@[simp] theorem doReset_zero : (s.doReset).zero = s.zero := rfl
@[simp] theorem doReset_mem : (s.doReset).mem = s.mem := rfl
@[simp] theorem doReset_on : (s.doReset).on = s.on := rfl
@[simp] theorem doReset_running : (s.doReset).running = false := rfl
@[simp] theorem doReset_halted : (s.doReset).halted = false := rfl
@[simp] theorem doReset_mPending : (s.doReset).mPending = false := rfl
@[simp] theorem doReset_iActive : (s.doReset).iActive = false := rfl
@[simp] theorem doReset_prev : (s.doReset).prev = s.prev := rfl
@[simp] theorem doReset_sw : (s.doReset).sw = s.sw := rfl
@[simp] theorem doReset_mc : (s.doReset).mc = 0 := rfl
@[simp] theorem doReset_ic : (s.doReset).ic = 0 := rfl
@[simp] theorem doReset_label : (s.doReset).label = .fetch := rfl
@[simp] theorem doReset_keyIn : (s.doReset).keyIn = s.keyIn := rfl
@[simp] theorem doReset_draws : (s.doReset).draws = s.draws := rfl
@[simp] theorem doReset_inbox : (s.doReset).inbox = s.inbox := rfl
@[simp] theorem doReset_reply : (s.doReset).reply = s.reply := rfl
@[simp] theorem doReset_polarity : (s.doReset).polarity = s.polarity := rfl
@[simp] theorem doReset_stepUnit : (s.doReset).stepUnit = s.stepUnit := rfl

/-! ### `powerOff` -/

@[simp] theorem powerOff_a : (s.powerOff).a = s.a := rfl
@[simp] theorem powerOff_b : (s.powerOff).b = s.b := rfl
@[simp] theorem powerOff_pc : (s.powerOff).pc = s.pc := rfl
@[simp] theorem powerOff_ir : (s.powerOff).ir = s.ir := rfl
@[simp] theorem powerOff_mar : (s.powerOff).mar = s.mar := rfl
@[simp] theorem powerOff_carry : (s.powerOff).carry = s.carry := rfl
@[simp] theorem powerOff_zero : (s.powerOff).zero = s.zero := rfl
@[simp] theorem powerOff_mem : (s.powerOff).mem = s.mem := rfl
@[simp] theorem powerOff_on : (s.powerOff).on = false := rfl
@[simp] theorem powerOff_running : (s.powerOff).running = false := rfl
@[simp] theorem powerOff_halted : (s.powerOff).halted = s.halted := rfl
@[simp] theorem powerOff_mPending : (s.powerOff).mPending = false := rfl
@[simp] theorem powerOff_iActive : (s.powerOff).iActive = false := rfl
@[simp] theorem powerOff_prev : (s.powerOff).prev = s.prev := rfl
@[simp] theorem powerOff_sw : (s.powerOff).sw = s.sw := rfl
@[simp] theorem powerOff_mc : (s.powerOff).mc = s.mc := rfl
@[simp] theorem powerOff_ic : (s.powerOff).ic = s.ic := rfl
@[simp] theorem powerOff_label : (s.powerOff).label = s.label := rfl
@[simp] theorem powerOff_keyIn : (s.powerOff).keyIn = s.keyIn := rfl
@[simp] theorem powerOff_draws : (s.powerOff).draws = s.draws := rfl
@[simp] theorem powerOff_inbox : (s.powerOff).inbox = s.inbox := rfl
@[simp] theorem powerOff_reply : (s.powerOff).reply = s.reply := rfl
@[simp] theorem powerOff_polarity : (s.powerOff).polarity = s.polarity := rfl
@[simp] theorem powerOff_stepUnit : (s.powerOff).stepUnit = s.stepUnit := rfl

/-! ### `powerOn` -/

@[simp] theorem powerOn_a : (s.powerOn).a = Config.powerDraw s.draws .a := rfl
@[simp] theorem powerOn_b : (s.powerOn).b = Config.powerDraw s.draws .b := rfl
@[simp] theorem powerOn_pc : (s.powerOn).pc = Config.powerDraw s.draws .pc := rfl
@[simp] theorem powerOn_ir : (s.powerOn).ir = Config.powerDraw s.draws .ir := rfl
@[simp] theorem powerOn_mar : (s.powerOn).mar = Config.powerDraw s.draws .mar := rfl
@[simp] theorem powerOn_carry : (s.powerOn).carry = false := rfl
@[simp] theorem powerOn_zero : (s.powerOn).zero = false := rfl
@[simp] theorem powerOn_mem : (s.powerOn).mem = Mem.fill 0 ((List.range Config.ramWords).map fun i => Config.powerDraw s.draws (.mem i)) := rfl
@[simp] theorem powerOn_on : (s.powerOn).on = true := rfl
@[simp] theorem powerOn_running : (s.powerOn).running = false := rfl
@[simp] theorem powerOn_halted : (s.powerOn).halted = false := rfl
@[simp] theorem powerOn_mPending : (s.powerOn).mPending = false := rfl
@[simp] theorem powerOn_iActive : (s.powerOn).iActive = false := rfl
@[simp] theorem powerOn_prev : (s.powerOn).prev = s.prev := rfl
@[simp] theorem powerOn_sw : (s.powerOn).sw = s.sw := rfl
@[simp] theorem powerOn_mc : (s.powerOn).mc = 0 := rfl
@[simp] theorem powerOn_ic : (s.powerOn).ic = 0 := rfl
@[simp] theorem powerOn_label : (s.powerOn).label = .fetch := rfl
@[simp] theorem powerOn_keyIn : (s.powerOn).keyIn = s.keyIn := rfl
@[simp] theorem powerOn_draws : (s.powerOn).draws = s.draws + 1 := rfl
@[simp] theorem powerOn_inbox : (s.powerOn).inbox = s.inbox := rfl
@[simp] theorem powerOn_reply : (s.powerOn).reply = s.reply := rfl
@[simp] theorem powerOn_polarity : (s.powerOn).polarity = s.polarity := rfl
@[simp] theorem powerOn_stepUnit : (s.powerOn).stepUnit = s.stepUnit := rfl

/-! ### `construct` -/

@[simp] theorem construct_a : (s.construct).a = Config.powerDraw s.draws .a := rfl
@[simp] theorem construct_b : (s.construct).b = Config.powerDraw s.draws .b := rfl
@[simp] theorem construct_pc : (s.construct).pc = Config.powerDraw s.draws .pc := rfl
@[simp] theorem construct_ir : (s.construct).ir = Config.powerDraw s.draws .ir := rfl
@[simp] theorem construct_mar : (s.construct).mar = Config.powerDraw s.draws .mar := rfl
@[simp] theorem construct_carry : (s.construct).carry = false := rfl
@[simp] theorem construct_zero : (s.construct).zero = false := rfl
@[simp] theorem construct_mem : (s.construct).mem = Mem.fill 0 ((List.range Config.ramWords).map fun i => Config.powerDraw s.draws (.mem i)) := rfl
@[simp] theorem construct_on : (s.construct).on = false := rfl
@[simp] theorem construct_running : (s.construct).running = false := rfl
@[simp] theorem construct_halted : (s.construct).halted = false := rfl
@[simp] theorem construct_mPending : (s.construct).mPending = false := rfl
@[simp] theorem construct_iActive : (s.construct).iActive = false := rfl
@[simp] theorem construct_prev : (s.construct).prev = Lines.low := rfl
@[simp] theorem construct_sw : (s.construct).sw = 0 := rfl
@[simp] theorem construct_mc : (s.construct).mc = 0 := rfl
@[simp] theorem construct_ic : (s.construct).ic = 0 := rfl
@[simp] theorem construct_label : (s.construct).label = .fetch := rfl
@[simp] theorem construct_keyIn : (s.construct).keyIn = s.keyIn := rfl
@[simp] theorem construct_draws : (s.construct).draws = s.draws + 1 := rfl
@[simp] theorem construct_inbox : (s.construct).inbox = s.inbox := rfl
@[simp] theorem construct_reply : (s.construct).reply = s.reply := rfl
@[simp] theorem construct_polarity : (s.construct).polarity = s.polarity := rfl
@[simp] theorem construct_stepUnit : (s.construct).stepUnit = s.stepUnit := rfl

/-! ### `arm` -/

@[simp] theorem arm_a : (s.arm).a = s.a := rfl
@[simp] theorem arm_b : (s.arm).b = s.b := rfl
@[simp] theorem arm_pc : (s.arm).pc = s.pc := rfl
@[simp] theorem arm_ir : (s.arm).ir = s.ir := rfl
@[simp] theorem arm_mar : (s.arm).mar = s.mar := rfl
@[simp] theorem arm_carry : (s.arm).carry = s.carry := rfl
@[simp] theorem arm_zero : (s.arm).zero = s.zero := rfl
@[simp] theorem arm_mem : (s.arm).mem = s.mem := rfl
@[simp] theorem arm_on : (s.arm).on = s.on := rfl
@[simp] theorem arm_running : (s.arm).running = true := rfl
@[simp] theorem arm_halted : (s.arm).halted = s.halted := rfl
@[simp] theorem arm_mPending : (s.arm).mPending = false := rfl
@[simp] theorem arm_iActive : (s.arm).iActive = false := rfl
@[simp] theorem arm_prev : (s.arm).prev = s.prev := rfl
@[simp] theorem arm_sw : (s.arm).sw = s.sw := rfl
@[simp] theorem arm_mc : (s.arm).mc = s.mc := rfl
@[simp] theorem arm_ic : (s.arm).ic = s.ic := rfl
@[simp] theorem arm_label : (s.arm).label = s.label := rfl
@[simp] theorem arm_keyIn : (s.arm).keyIn = s.keyIn := rfl
@[simp] theorem arm_draws : (s.arm).draws = s.draws := rfl
@[simp] theorem arm_inbox : (s.arm).inbox = s.inbox := rfl
@[simp] theorem arm_reply : (s.arm).reply = s.reply := rfl
@[simp] theorem arm_polarity : (s.arm).polarity = s.polarity := rfl
@[simp] theorem arm_stepUnit : (s.arm).stepUnit = s.stepUnit := rfl

/-! ### `examineAt` -/

@[simp] theorem examineAt_a (v : Word) : (s.examineAt v).a = s.a := rfl
@[simp] theorem examineAt_b (v : Word) : (s.examineAt v).b = s.b := rfl
@[simp] theorem examineAt_pc (v : Word) : (s.examineAt v).pc = v := rfl
@[simp] theorem examineAt_ir (v : Word) : (s.examineAt v).ir = s.ir := rfl
@[simp] theorem examineAt_mar (v : Word) : (s.examineAt v).mar = s.mar := rfl
@[simp] theorem examineAt_carry (v : Word) : (s.examineAt v).carry = s.carry := rfl
@[simp] theorem examineAt_zero (v : Word) : (s.examineAt v).zero = s.zero := rfl
@[simp] theorem examineAt_mem (v : Word) : (s.examineAt v).mem = s.mem := rfl
@[simp] theorem examineAt_on (v : Word) : (s.examineAt v).on = s.on := rfl
@[simp] theorem examineAt_running (v : Word) : (s.examineAt v).running = s.running := rfl
@[simp] theorem examineAt_halted (v : Word) : (s.examineAt v).halted = s.halted := rfl
@[simp] theorem examineAt_mPending (v : Word) : (s.examineAt v).mPending = false := rfl
@[simp] theorem examineAt_iActive (v : Word) : (s.examineAt v).iActive = false := rfl
@[simp] theorem examineAt_prev (v : Word) : (s.examineAt v).prev = s.prev := rfl
@[simp] theorem examineAt_sw (v : Word) : (s.examineAt v).sw = s.sw := rfl
@[simp] theorem examineAt_mc (v : Word) : (s.examineAt v).mc = 0 := rfl
@[simp] theorem examineAt_ic (v : Word) : (s.examineAt v).ic = s.ic := rfl
@[simp] theorem examineAt_label (v : Word) : (s.examineAt v).label = .fetch := rfl
@[simp] theorem examineAt_keyIn (v : Word) : (s.examineAt v).keyIn = s.keyIn := rfl
@[simp] theorem examineAt_draws (v : Word) : (s.examineAt v).draws = s.draws := rfl
@[simp] theorem examineAt_inbox (v : Word) : (s.examineAt v).inbox = s.inbox := rfl
@[simp] theorem examineAt_reply (v : Word) : (s.examineAt v).reply = s.reply := rfl
@[simp] theorem examineAt_polarity (v : Word) : (s.examineAt v).polarity = s.polarity := rfl
@[simp] theorem examineAt_stepUnit (v : Word) : (s.examineAt v).stepUnit = s.stepUnit := rfl

/-! ### `latchSwitches` -/

@[simp] theorem latchSwitches_a (l : Inputs) : (s.latchSwitches l).a = s.a := rfl
@[simp] theorem latchSwitches_b (l : Inputs) : (s.latchSwitches l).b = s.b := rfl
@[simp] theorem latchSwitches_pc (l : Inputs) : (s.latchSwitches l).pc = s.pc := rfl
@[simp] theorem latchSwitches_ir (l : Inputs) : (s.latchSwitches l).ir = s.ir := rfl
@[simp] theorem latchSwitches_mar (l : Inputs) : (s.latchSwitches l).mar = s.mar := rfl
@[simp] theorem latchSwitches_carry (l : Inputs) : (s.latchSwitches l).carry = s.carry := rfl
@[simp] theorem latchSwitches_zero (l : Inputs) : (s.latchSwitches l).zero = s.zero := rfl
@[simp] theorem latchSwitches_mem (l : Inputs) : (s.latchSwitches l).mem = s.mem := rfl
@[simp] theorem latchSwitches_on (l : Inputs) : (s.latchSwitches l).on = s.on := rfl
@[simp] theorem latchSwitches_running (l : Inputs) : (s.latchSwitches l).running = s.running := rfl
@[simp] theorem latchSwitches_halted (l : Inputs) : (s.latchSwitches l).halted = s.halted := rfl
@[simp] theorem latchSwitches_mPending (l : Inputs) : (s.latchSwitches l).mPending = s.mPending := rfl
@[simp] theorem latchSwitches_iActive (l : Inputs) : (s.latchSwitches l).iActive = s.iActive := rfl
@[simp] theorem latchSwitches_prev (l : Inputs) : (s.latchSwitches l).prev = s.prev := rfl
@[simp] theorem latchSwitches_sw (l : Inputs) : (s.latchSwitches l).sw = wrapN l.switches := rfl
@[simp] theorem latchSwitches_mc (l : Inputs) : (s.latchSwitches l).mc = s.mc := rfl
@[simp] theorem latchSwitches_ic (l : Inputs) : (s.latchSwitches l).ic = s.ic := rfl
@[simp] theorem latchSwitches_label (l : Inputs) : (s.latchSwitches l).label = s.label := rfl
@[simp] theorem latchSwitches_keyIn (l : Inputs) : (s.latchSwitches l).keyIn = s.keyIn := rfl
@[simp] theorem latchSwitches_draws (l : Inputs) : (s.latchSwitches l).draws = s.draws := rfl
@[simp] theorem latchSwitches_inbox (l : Inputs) : (s.latchSwitches l).inbox = s.inbox := rfl
@[simp] theorem latchSwitches_reply (l : Inputs) : (s.latchSwitches l).reply = s.reply := rfl
@[simp] theorem latchSwitches_polarity (l : Inputs) : (s.latchSwitches l).polarity = s.polarity := rfl
@[simp] theorem latchSwitches_stepUnit (l : Inputs) : (s.latchSwitches l).stepUnit = s.stepUnit := rfl

/-! ### `latchLines` -/

@[simp] theorem latchLines_a (l : Lines) : (s.latchLines l).a = s.a := rfl
@[simp] theorem latchLines_b (l : Lines) : (s.latchLines l).b = s.b := rfl
@[simp] theorem latchLines_pc (l : Lines) : (s.latchLines l).pc = s.pc := rfl
@[simp] theorem latchLines_ir (l : Lines) : (s.latchLines l).ir = s.ir := rfl
@[simp] theorem latchLines_mar (l : Lines) : (s.latchLines l).mar = s.mar := rfl
@[simp] theorem latchLines_carry (l : Lines) : (s.latchLines l).carry = s.carry := rfl
@[simp] theorem latchLines_zero (l : Lines) : (s.latchLines l).zero = s.zero := rfl
@[simp] theorem latchLines_mem (l : Lines) : (s.latchLines l).mem = s.mem := rfl
@[simp] theorem latchLines_on (l : Lines) : (s.latchLines l).on = s.on := rfl
@[simp] theorem latchLines_running (l : Lines) : (s.latchLines l).running = s.running := rfl
@[simp] theorem latchLines_halted (l : Lines) : (s.latchLines l).halted = s.halted := rfl
@[simp] theorem latchLines_mPending (l : Lines) : (s.latchLines l).mPending = s.mPending := rfl
@[simp] theorem latchLines_iActive (l : Lines) : (s.latchLines l).iActive = s.iActive := rfl
@[simp] theorem latchLines_prev (l : Lines) : (s.latchLines l).prev = l := rfl
@[simp] theorem latchLines_sw (l : Lines) : (s.latchLines l).sw = s.sw := rfl
@[simp] theorem latchLines_mc (l : Lines) : (s.latchLines l).mc = s.mc := rfl
@[simp] theorem latchLines_ic (l : Lines) : (s.latchLines l).ic = s.ic := rfl
@[simp] theorem latchLines_label (l : Lines) : (s.latchLines l).label = s.label := rfl
@[simp] theorem latchLines_keyIn (l : Lines) : (s.latchLines l).keyIn = s.keyIn := rfl
@[simp] theorem latchLines_draws (l : Lines) : (s.latchLines l).draws = s.draws := rfl
@[simp] theorem latchLines_inbox (l : Lines) : (s.latchLines l).inbox = s.inbox := rfl
@[simp] theorem latchLines_reply (l : Lines) : (s.latchLines l).reply = s.reply := rfl
@[simp] theorem latchLines_polarity (l : Lines) : (s.latchLines l).polarity = s.polarity := rfl
@[simp] theorem latchLines_stepUnit (l : Lines) : (s.latchLines l).stepUnit = s.stepUnit := rfl

/-! ### `loadRam` -/

@[simp] theorem loadRam_a (ws : List Word) : (s.loadRam ws).a = s.a := rfl
@[simp] theorem loadRam_b (ws : List Word) : (s.loadRam ws).b = s.b := rfl
@[simp] theorem loadRam_pc (ws : List Word) : (s.loadRam ws).pc = s.pc := rfl
@[simp] theorem loadRam_ir (ws : List Word) : (s.loadRam ws).ir = s.ir := rfl
@[simp] theorem loadRam_mar (ws : List Word) : (s.loadRam ws).mar = s.mar := rfl
@[simp] theorem loadRam_carry (ws : List Word) : (s.loadRam ws).carry = s.carry := rfl
@[simp] theorem loadRam_zero (ws : List Word) : (s.loadRam ws).zero = s.zero := rfl
@[simp] theorem loadRam_mem (ws : List Word) : (s.loadRam ws).mem = Mem.fill 0 (ws ++ List.replicate (Config.ramWords - ws.length) 0) := rfl
@[simp] theorem loadRam_on (ws : List Word) : (s.loadRam ws).on = s.on := rfl
@[simp] theorem loadRam_running (ws : List Word) : (s.loadRam ws).running = s.running := rfl
@[simp] theorem loadRam_halted (ws : List Word) : (s.loadRam ws).halted = s.halted := rfl
@[simp] theorem loadRam_mPending (ws : List Word) : (s.loadRam ws).mPending = s.mPending := rfl
@[simp] theorem loadRam_iActive (ws : List Word) : (s.loadRam ws).iActive = s.iActive := rfl
@[simp] theorem loadRam_prev (ws : List Word) : (s.loadRam ws).prev = s.prev := rfl
@[simp] theorem loadRam_sw (ws : List Word) : (s.loadRam ws).sw = s.sw := rfl
@[simp] theorem loadRam_mc (ws : List Word) : (s.loadRam ws).mc = s.mc := rfl
@[simp] theorem loadRam_ic (ws : List Word) : (s.loadRam ws).ic = s.ic := rfl
@[simp] theorem loadRam_label (ws : List Word) : (s.loadRam ws).label = s.label := rfl
@[simp] theorem loadRam_keyIn (ws : List Word) : (s.loadRam ws).keyIn = s.keyIn := rfl
@[simp] theorem loadRam_draws (ws : List Word) : (s.loadRam ws).draws = s.draws := rfl
@[simp] theorem loadRam_inbox (ws : List Word) : (s.loadRam ws).inbox = s.inbox := rfl
@[simp] theorem loadRam_reply (ws : List Word) : (s.loadRam ws).reply = s.reply := rfl
@[simp] theorem loadRam_polarity (ws : List Word) : (s.loadRam ws).polarity = s.polarity := rfl
@[simp] theorem loadRam_stepUnit (ws : List Word) : (s.loadRam ws).stepUnit = s.stepUnit := rfl

/-! ### `inputKey` (R109) -/

theorem inputKey_a : s.inputKey.a = s.keyIn.getD (Config.keyDraw s.draws) := by
  unfold inputKey; cases s.keyIn <;> rfl
@[simp] theorem inputKey_b : s.inputKey.b = s.b := by unfold inputKey; split <;> rfl
@[simp] theorem inputKey_pc : s.inputKey.pc = s.pc := by unfold inputKey; split <;> rfl
@[simp] theorem inputKey_ir : s.inputKey.ir = s.ir := by unfold inputKey; split <;> rfl
@[simp] theorem inputKey_mar : s.inputKey.mar = s.mar := by unfold inputKey; split <;> rfl
@[simp] theorem inputKey_carry : s.inputKey.carry = s.carry := by unfold inputKey; split <;> rfl
@[simp] theorem inputKey_zero : s.inputKey.zero = s.zero := by unfold inputKey; split <;> rfl
@[simp] theorem inputKey_mem : s.inputKey.mem = s.mem := by unfold inputKey; split <;> rfl
@[simp] theorem inputKey_on : s.inputKey.on = s.on := by unfold inputKey; split <;> rfl
@[simp] theorem inputKey_running : s.inputKey.running = s.running := by unfold inputKey; split <;> rfl
@[simp] theorem inputKey_halted : s.inputKey.halted = s.halted := by unfold inputKey; split <;> rfl
@[simp] theorem inputKey_mPending : s.inputKey.mPending = s.mPending := by unfold inputKey; split <;> rfl
@[simp] theorem inputKey_iActive : s.inputKey.iActive = s.iActive := by unfold inputKey; split <;> rfl
@[simp] theorem inputKey_prev : s.inputKey.prev = s.prev := by unfold inputKey; split <;> rfl
@[simp] theorem inputKey_sw : s.inputKey.sw = s.sw := by unfold inputKey; split <;> rfl
@[simp] theorem inputKey_mc : s.inputKey.mc = s.mc := by unfold inputKey; split <;> rfl
@[simp] theorem inputKey_ic : s.inputKey.ic = s.ic := by unfold inputKey; split <;> rfl
@[simp] theorem inputKey_label : s.inputKey.label = s.label := by unfold inputKey; split <;> rfl
@[simp] theorem inputKey_keyIn : s.inputKey.keyIn = none := by
  unfold inputKey; split <;> simp_all
theorem inputKey_draws : s.inputKey.draws = if s.keyIn.isSome then s.draws else s.draws + 1 := by
  unfold inputKey; cases s.keyIn <;> rfl
@[simp] theorem inputKey_inbox : s.inputKey.inbox = s.inbox := by unfold inputKey; split <;> rfl
@[simp] theorem inputKey_reply : s.inputKey.reply = s.reply := by unfold inputKey; split <;> rfl
@[simp] theorem inputKey_polarity : s.inputKey.polarity = s.polarity := by unfold inputKey; split <;> rfl
@[simp] theorem inputKey_stepUnit : s.inputKey.stepUnit = s.stepUnit := by unfold inputKey; split <;> rfl

end Sys2Proof.Machine.State
end

