-- ==== Sys2Proof/Laws/Exec.lean ====
section
/-! SUPPORT. What each shared composed effect does, as one record update (40_sequencer R120), and that `exec` always goes on. -/

namespace Sys2Proof.Machine

theorem runSkip_eq (s : State) (x op : BitVec 6) :
    s.runSkip x op = { s with ir := x ++ op, pc := s.pc + 1, mc := 0, ic := s.ic + 1, label := .fetch } := rfl

theorem runMemAlu_eq (s : State) (x op : BitVec 6) (f : AluFn) (addr : Word) :
    s.runMemAlu x op f addr =
      { s with ir := x ++ op, mar := addr, b := s.memRead addr.toNat,
               a := (aluOut s.polarity f s.a (s.memRead addr.toNat) s.carry).a,
               carry := (aluOut s.polarity f s.a (s.memRead addr.toNat) s.carry).carry,
               zero := (aluOut s.polarity f s.a (s.memRead addr.toNat) s.carry).zero,
               pc := s.pc + 2, mc := 0, ic := s.ic + 1, label := .fetch } := rfl

theorem runImmAlu_eq (s : State) (x op : BitVec 6) (f : AluFn) (imm : Word) :
    s.runImmAlu x op f imm =
      { s with ir := x ++ op, b := imm,
               a := (aluOut s.polarity f s.a imm s.carry).a,
               carry := (aluOut s.polarity f s.a imm s.carry).carry,
               zero := (aluOut s.polarity f s.a imm s.carry).zero,
               pc := s.pc + 2, mc := 0, ic := s.ic + 1, label := .fetch } := rfl

theorem runAccAlu_eq (s : State) (x op : BitVec 6) (f : AluFn) :
    s.runAccAlu x op f =
      { s with ir := x ++ op,
               a := (aluOut s.polarity f s.a s.b s.carry).a,
               carry := (aluOut s.polarity f s.a s.b s.carry).carry,
               zero := (aluOut s.polarity f s.a s.b s.carry).zero,
               pc := s.pc + 1, mc := 0, ic := s.ic + 1, label := .fetch } := rfl

theorem runJump_eq (s : State) (x op : BitVec 6) (taken : Bool) (target : Word) :
    s.runJump x op taken target =
      { s with ir := x ++ op, pc := if taken then target else s.pc + 2, mc := 0, ic := s.ic + 1, label := .fetch } := rfl

/-- No instruction stops the machine (R220): `exec` answers a next state on every instruction in every state. -/
theorem exec_next (i : Instr) (s : State) : ∃ t, exec i s = .next t := by
  cases i <;> exact ⟨_, rfl⟩

end Sys2Proof.Machine
end

