-- ==== Sys2Proof/Laws/FrontPanel.lean ====
section
/-! SUPPORT. What each line of a scan leaves as it was (60_exceptions R229 to R239), one lemma per field. -/

namespace Sys2Proof.Machine.State

variable (s : State) (l : Lines)

/-! ### `scanReset` (R235) -/

@[simp] theorem scanReset_a : (s.scanReset l).a = s.a := by unfold scanReset; split <;> rfl
@[simp] theorem scanReset_b : (s.scanReset l).b = s.b := by unfold scanReset; split <;> rfl
@[simp] theorem scanReset_ir : (s.scanReset l).ir = s.ir := by unfold scanReset; split <;> rfl
@[simp] theorem scanReset_mar : (s.scanReset l).mar = s.mar := by unfold scanReset; split <;> rfl
@[simp] theorem scanReset_carry : (s.scanReset l).carry = s.carry := by unfold scanReset; split <;> rfl
@[simp] theorem scanReset_zero : (s.scanReset l).zero = s.zero := by unfold scanReset; split <;> rfl
@[simp] theorem scanReset_mem : (s.scanReset l).mem = s.mem := by unfold scanReset; split <;> rfl
@[simp] theorem scanReset_on : (s.scanReset l).on = s.on := by unfold scanReset; split <;> rfl
@[simp] theorem scanReset_prev : (s.scanReset l).prev = s.prev := by unfold scanReset; split <;> rfl
@[simp] theorem scanReset_sw : (s.scanReset l).sw = s.sw := by unfold scanReset; split <;> rfl
@[simp] theorem scanReset_keyIn : (s.scanReset l).keyIn = s.keyIn := by unfold scanReset; split <;> rfl
@[simp] theorem scanReset_draws : (s.scanReset l).draws = s.draws := by unfold scanReset; split <;> rfl
@[simp] theorem scanReset_inbox : (s.scanReset l).inbox = s.inbox := by unfold scanReset; split <;> rfl
@[simp] theorem scanReset_reply : (s.scanReset l).reply = s.reply := by unfold scanReset; split <;> rfl
@[simp] theorem scanReset_polarity : (s.scanReset l).polarity = s.polarity := by unfold scanReset; split <;> rfl
@[simp] theorem scanReset_stepUnit : (s.scanReset l).stepUnit = s.stepUnit := by unfold scanReset; split <;> rfl

/-! ### `scanRun` (R232) -/

@[simp] theorem scanRun_a : (s.scanRun l).a = s.a := by unfold scanRun; split <;> [rfl; split] <;> rfl
@[simp] theorem scanRun_b : (s.scanRun l).b = s.b := by unfold scanRun; split <;> [rfl; split] <;> rfl
@[simp] theorem scanRun_pc : (s.scanRun l).pc = s.pc := by unfold scanRun; split <;> [rfl; split] <;> rfl
@[simp] theorem scanRun_ir : (s.scanRun l).ir = s.ir := by unfold scanRun; split <;> [rfl; split] <;> rfl
@[simp] theorem scanRun_mar : (s.scanRun l).mar = s.mar := by unfold scanRun; split <;> [rfl; split] <;> rfl
@[simp] theorem scanRun_carry : (s.scanRun l).carry = s.carry := by unfold scanRun; split <;> [rfl; split] <;> rfl
@[simp] theorem scanRun_zero : (s.scanRun l).zero = s.zero := by unfold scanRun; split <;> [rfl; split] <;> rfl
@[simp] theorem scanRun_mem : (s.scanRun l).mem = s.mem := by unfold scanRun; split <;> [rfl; split] <;> rfl
@[simp] theorem scanRun_on : (s.scanRun l).on = s.on := by unfold scanRun; split <;> [rfl; split] <;> rfl
@[simp] theorem scanRun_halted : (s.scanRun l).halted = s.halted := by unfold scanRun; split <;> [rfl; split] <;> rfl
@[simp] theorem scanRun_prev : (s.scanRun l).prev = s.prev := by unfold scanRun; split <;> [rfl; split] <;> rfl
@[simp] theorem scanRun_sw : (s.scanRun l).sw = s.sw := by unfold scanRun; split <;> [rfl; split] <;> rfl
@[simp] theorem scanRun_mc : (s.scanRun l).mc = s.mc := by unfold scanRun; split <;> [rfl; split] <;> rfl
@[simp] theorem scanRun_ic : (s.scanRun l).ic = s.ic := by unfold scanRun; split <;> [rfl; split] <;> rfl
@[simp] theorem scanRun_label : (s.scanRun l).label = s.label := by unfold scanRun; split <;> [rfl; split] <;> rfl
@[simp] theorem scanRun_keyIn : (s.scanRun l).keyIn = s.keyIn := by unfold scanRun; split <;> [rfl; split] <;> rfl
@[simp] theorem scanRun_draws : (s.scanRun l).draws = s.draws := by unfold scanRun; split <;> [rfl; split] <;> rfl
@[simp] theorem scanRun_inbox : (s.scanRun l).inbox = s.inbox := by unfold scanRun; split <;> [rfl; split] <;> rfl
@[simp] theorem scanRun_reply : (s.scanRun l).reply = s.reply := by unfold scanRun; split <;> [rfl; split] <;> rfl
@[simp] theorem scanRun_polarity : (s.scanRun l).polarity = s.polarity := by unfold scanRun; split <;> [rfl; split] <;> rfl
@[simp] theorem scanRun_stepUnit : (s.scanRun l).stepUnit = s.stepUnit := by unfold scanRun; split <;> [rfl; split] <;> rfl

/-! ### `scanExamine` (R236) -/

@[simp] theorem scanExamine_a : (s.scanExamine l).a = s.a := by unfold scanExamine; split <;> rfl
@[simp] theorem scanExamine_b : (s.scanExamine l).b = s.b := by unfold scanExamine; split <;> rfl
@[simp] theorem scanExamine_ir : (s.scanExamine l).ir = s.ir := by unfold scanExamine; split <;> rfl
@[simp] theorem scanExamine_mar : (s.scanExamine l).mar = s.mar := by unfold scanExamine; split <;> rfl
@[simp] theorem scanExamine_carry : (s.scanExamine l).carry = s.carry := by unfold scanExamine; split <;> rfl
@[simp] theorem scanExamine_zero : (s.scanExamine l).zero = s.zero := by unfold scanExamine; split <;> rfl
@[simp] theorem scanExamine_mem : (s.scanExamine l).mem = s.mem := by unfold scanExamine; split <;> rfl
@[simp] theorem scanExamine_on : (s.scanExamine l).on = s.on := by unfold scanExamine; split <;> rfl
@[simp] theorem scanExamine_running : (s.scanExamine l).running = s.running := by unfold scanExamine; split <;> rfl
@[simp] theorem scanExamine_halted : (s.scanExamine l).halted = s.halted := by unfold scanExamine; split <;> rfl
@[simp] theorem scanExamine_prev : (s.scanExamine l).prev = s.prev := by unfold scanExamine; split <;> rfl
@[simp] theorem scanExamine_sw : (s.scanExamine l).sw = s.sw := by unfold scanExamine; split <;> rfl
@[simp] theorem scanExamine_ic : (s.scanExamine l).ic = s.ic := by unfold scanExamine; split <;> rfl
@[simp] theorem scanExamine_keyIn : (s.scanExamine l).keyIn = s.keyIn := by unfold scanExamine; split <;> rfl
@[simp] theorem scanExamine_draws : (s.scanExamine l).draws = s.draws := by unfold scanExamine; split <;> rfl
@[simp] theorem scanExamine_inbox : (s.scanExamine l).inbox = s.inbox := by unfold scanExamine; split <;> rfl
@[simp] theorem scanExamine_reply : (s.scanExamine l).reply = s.reply := by unfold scanExamine; split <;> rfl
@[simp] theorem scanExamine_polarity : (s.scanExamine l).polarity = s.polarity := by unfold scanExamine; split <;> rfl
@[simp] theorem scanExamine_stepUnit : (s.scanExamine l).stepUnit = s.stepUnit := by unfold scanExamine; split <;> rfl

/-! ### `scanExamineNext` (R237) -/

@[simp] theorem scanExamineNext_a : (s.scanExamineNext l).a = s.a := by unfold scanExamineNext; split <;> rfl
@[simp] theorem scanExamineNext_b : (s.scanExamineNext l).b = s.b := by unfold scanExamineNext; split <;> rfl
@[simp] theorem scanExamineNext_ir : (s.scanExamineNext l).ir = s.ir := by unfold scanExamineNext; split <;> rfl
@[simp] theorem scanExamineNext_mar : (s.scanExamineNext l).mar = s.mar := by unfold scanExamineNext; split <;> rfl
@[simp] theorem scanExamineNext_carry : (s.scanExamineNext l).carry = s.carry := by unfold scanExamineNext; split <;> rfl
@[simp] theorem scanExamineNext_zero : (s.scanExamineNext l).zero = s.zero := by unfold scanExamineNext; split <;> rfl
@[simp] theorem scanExamineNext_mem : (s.scanExamineNext l).mem = s.mem := by unfold scanExamineNext; split <;> rfl
@[simp] theorem scanExamineNext_on : (s.scanExamineNext l).on = s.on := by unfold scanExamineNext; split <;> rfl
@[simp] theorem scanExamineNext_running : (s.scanExamineNext l).running = s.running := by unfold scanExamineNext; split <;> rfl
@[simp] theorem scanExamineNext_halted : (s.scanExamineNext l).halted = s.halted := by unfold scanExamineNext; split <;> rfl
@[simp] theorem scanExamineNext_prev : (s.scanExamineNext l).prev = s.prev := by unfold scanExamineNext; split <;> rfl
@[simp] theorem scanExamineNext_sw : (s.scanExamineNext l).sw = s.sw := by unfold scanExamineNext; split <;> rfl
@[simp] theorem scanExamineNext_ic : (s.scanExamineNext l).ic = s.ic := by unfold scanExamineNext; split <;> rfl
@[simp] theorem scanExamineNext_keyIn : (s.scanExamineNext l).keyIn = s.keyIn := by unfold scanExamineNext; split <;> rfl
@[simp] theorem scanExamineNext_draws : (s.scanExamineNext l).draws = s.draws := by unfold scanExamineNext; split <;> rfl
@[simp] theorem scanExamineNext_inbox : (s.scanExamineNext l).inbox = s.inbox := by unfold scanExamineNext; split <;> rfl
@[simp] theorem scanExamineNext_reply : (s.scanExamineNext l).reply = s.reply := by unfold scanExamineNext; split <;> rfl
@[simp] theorem scanExamineNext_polarity : (s.scanExamineNext l).polarity = s.polarity := by unfold scanExamineNext; split <;> rfl
@[simp] theorem scanExamineNext_stepUnit : (s.scanExamineNext l).stepUnit = s.stepUnit := by unfold scanExamineNext; split <;> rfl

/-! ### `scanDeposit` (R238) -/

@[simp] theorem scanDeposit_a : (s.scanDeposit l).a = s.a := by unfold scanDeposit; split <;> rfl
@[simp] theorem scanDeposit_b : (s.scanDeposit l).b = s.b := by unfold scanDeposit; split <;> rfl
@[simp] theorem scanDeposit_pc : (s.scanDeposit l).pc = s.pc := by unfold scanDeposit; split <;> rfl
@[simp] theorem scanDeposit_ir : (s.scanDeposit l).ir = s.ir := by unfold scanDeposit; split <;> rfl
@[simp] theorem scanDeposit_mar : (s.scanDeposit l).mar = s.mar := by unfold scanDeposit; split <;> rfl
@[simp] theorem scanDeposit_carry : (s.scanDeposit l).carry = s.carry := by unfold scanDeposit; split <;> rfl
@[simp] theorem scanDeposit_zero : (s.scanDeposit l).zero = s.zero := by unfold scanDeposit; split <;> rfl
@[simp] theorem scanDeposit_on : (s.scanDeposit l).on = s.on := by unfold scanDeposit; split <;> rfl
@[simp] theorem scanDeposit_running : (s.scanDeposit l).running = s.running := by unfold scanDeposit; split <;> rfl
@[simp] theorem scanDeposit_halted : (s.scanDeposit l).halted = s.halted := by unfold scanDeposit; split <;> rfl
@[simp] theorem scanDeposit_mPending : (s.scanDeposit l).mPending = s.mPending := by unfold scanDeposit; split <;> rfl
@[simp] theorem scanDeposit_iActive : (s.scanDeposit l).iActive = s.iActive := by unfold scanDeposit; split <;> rfl
@[simp] theorem scanDeposit_prev : (s.scanDeposit l).prev = s.prev := by unfold scanDeposit; split <;> rfl
@[simp] theorem scanDeposit_sw : (s.scanDeposit l).sw = s.sw := by unfold scanDeposit; split <;> rfl
@[simp] theorem scanDeposit_mc : (s.scanDeposit l).mc = s.mc := by unfold scanDeposit; split <;> rfl
@[simp] theorem scanDeposit_ic : (s.scanDeposit l).ic = s.ic := by unfold scanDeposit; split <;> rfl
@[simp] theorem scanDeposit_label : (s.scanDeposit l).label = s.label := by unfold scanDeposit; split <;> rfl
@[simp] theorem scanDeposit_keyIn : (s.scanDeposit l).keyIn = s.keyIn := by unfold scanDeposit; split <;> rfl
@[simp] theorem scanDeposit_draws : (s.scanDeposit l).draws = s.draws := by unfold scanDeposit; split <;> rfl
@[simp] theorem scanDeposit_inbox : (s.scanDeposit l).inbox = s.inbox := by unfold scanDeposit; split <;> rfl
@[simp] theorem scanDeposit_reply : (s.scanDeposit l).reply = s.reply := by unfold scanDeposit; split <;> rfl
@[simp] theorem scanDeposit_polarity : (s.scanDeposit l).polarity = s.polarity := by unfold scanDeposit; split <;> rfl
@[simp] theorem scanDeposit_stepUnit : (s.scanDeposit l).stepUnit = s.stepUnit := by unfold scanDeposit; split <;> rfl

/-! ### `scanDepositNext` (R239) -/

@[simp] theorem scanDepositNext_a : (s.scanDepositNext l).a = s.a := by unfold scanDepositNext; split <;> rfl
@[simp] theorem scanDepositNext_b : (s.scanDepositNext l).b = s.b := by unfold scanDepositNext; split <;> rfl
@[simp] theorem scanDepositNext_ir : (s.scanDepositNext l).ir = s.ir := by unfold scanDepositNext; split <;> rfl
@[simp] theorem scanDepositNext_mar : (s.scanDepositNext l).mar = s.mar := by unfold scanDepositNext; split <;> rfl
@[simp] theorem scanDepositNext_carry : (s.scanDepositNext l).carry = s.carry := by unfold scanDepositNext; split <;> rfl
@[simp] theorem scanDepositNext_zero : (s.scanDepositNext l).zero = s.zero := by unfold scanDepositNext; split <;> rfl
@[simp] theorem scanDepositNext_on : (s.scanDepositNext l).on = s.on := by unfold scanDepositNext; split <;> rfl
@[simp] theorem scanDepositNext_running : (s.scanDepositNext l).running = s.running := by unfold scanDepositNext; split <;> rfl
@[simp] theorem scanDepositNext_halted : (s.scanDepositNext l).halted = s.halted := by unfold scanDepositNext; split <;> rfl
@[simp] theorem scanDepositNext_mPending : (s.scanDepositNext l).mPending = s.mPending := by unfold scanDepositNext; split <;> rfl
@[simp] theorem scanDepositNext_iActive : (s.scanDepositNext l).iActive = s.iActive := by unfold scanDepositNext; split <;> rfl
@[simp] theorem scanDepositNext_prev : (s.scanDepositNext l).prev = s.prev := by unfold scanDepositNext; split <;> rfl
@[simp] theorem scanDepositNext_sw : (s.scanDepositNext l).sw = s.sw := by unfold scanDepositNext; split <;> rfl
@[simp] theorem scanDepositNext_mc : (s.scanDepositNext l).mc = s.mc := by unfold scanDepositNext; split <;> rfl
@[simp] theorem scanDepositNext_ic : (s.scanDepositNext l).ic = s.ic := by unfold scanDepositNext; split <;> rfl
@[simp] theorem scanDepositNext_label : (s.scanDepositNext l).label = s.label := by unfold scanDepositNext; split <;> rfl
@[simp] theorem scanDepositNext_keyIn : (s.scanDepositNext l).keyIn = s.keyIn := by unfold scanDepositNext; split <;> rfl
@[simp] theorem scanDepositNext_draws : (s.scanDepositNext l).draws = s.draws := by unfold scanDepositNext; split <;> rfl
@[simp] theorem scanDepositNext_inbox : (s.scanDepositNext l).inbox = s.inbox := by unfold scanDepositNext; split <;> rfl
@[simp] theorem scanDepositNext_reply : (s.scanDepositNext l).reply = s.reply := by unfold scanDepositNext; split <;> rfl
@[simp] theorem scanDepositNext_polarity : (s.scanDepositNext l).polarity = s.polarity := by unfold scanDepositNext; split <;> rfl
@[simp] theorem scanDepositNext_stepUnit : (s.scanDepositNext l).stepUnit = s.stepUnit := by unfold scanDepositNext; split <;> rfl

/-! ### `scanPanel` (R225) -/

@[simp] theorem scanPanel_a : (s.scanPanel l).a = s.a := by unfold scanPanel; split <;> simp
@[simp] theorem scanPanel_b : (s.scanPanel l).b = s.b := by unfold scanPanel; split <;> simp
@[simp] theorem scanPanel_ir : (s.scanPanel l).ir = s.ir := by unfold scanPanel; split <;> simp
@[simp] theorem scanPanel_mar : (s.scanPanel l).mar = s.mar := by unfold scanPanel; split <;> simp
@[simp] theorem scanPanel_carry : (s.scanPanel l).carry = s.carry := by unfold scanPanel; split <;> simp
@[simp] theorem scanPanel_zero : (s.scanPanel l).zero = s.zero := by unfold scanPanel; split <;> simp
@[simp] theorem scanPanel_on : (s.scanPanel l).on = s.on := by unfold scanPanel; split <;> simp
@[simp] theorem scanPanel_running : (s.scanPanel l).running = s.running := by unfold scanPanel; split <;> simp
@[simp] theorem scanPanel_halted : (s.scanPanel l).halted = s.halted := by unfold scanPanel; split <;> simp
@[simp] theorem scanPanel_prev : (s.scanPanel l).prev = s.prev := by unfold scanPanel; split <;> simp
@[simp] theorem scanPanel_sw : (s.scanPanel l).sw = s.sw := by unfold scanPanel; split <;> simp
@[simp] theorem scanPanel_ic : (s.scanPanel l).ic = s.ic := by unfold scanPanel; split <;> simp
@[simp] theorem scanPanel_keyIn : (s.scanPanel l).keyIn = s.keyIn := by unfold scanPanel; split <;> simp
@[simp] theorem scanPanel_draws : (s.scanPanel l).draws = s.draws := by unfold scanPanel; split <;> simp
@[simp] theorem scanPanel_inbox : (s.scanPanel l).inbox = s.inbox := by unfold scanPanel; split <;> simp
@[simp] theorem scanPanel_reply : (s.scanPanel l).reply = s.reply := by unfold scanPanel; split <;> simp
@[simp] theorem scanPanel_polarity : (s.scanPanel l).polarity = s.polarity := by unfold scanPanel; split <;> simp
@[simp] theorem scanPanel_stepUnit : (s.scanPanel l).stepUnit = s.stepUnit := by unfold scanPanel; split <;> simp

/-! ### `scanSteps` (R233, R234) -/

@[simp] theorem scanSteps_a : (s.scanSteps l).a = s.a := by unfold scanSteps; split <;> rfl
@[simp] theorem scanSteps_b : (s.scanSteps l).b = s.b := by unfold scanSteps; split <;> rfl
@[simp] theorem scanSteps_pc : (s.scanSteps l).pc = s.pc := by unfold scanSteps; split <;> rfl
@[simp] theorem scanSteps_ir : (s.scanSteps l).ir = s.ir := by unfold scanSteps; split <;> rfl
@[simp] theorem scanSteps_mar : (s.scanSteps l).mar = s.mar := by unfold scanSteps; split <;> rfl
@[simp] theorem scanSteps_carry : (s.scanSteps l).carry = s.carry := by unfold scanSteps; split <;> rfl
@[simp] theorem scanSteps_zero : (s.scanSteps l).zero = s.zero := by unfold scanSteps; split <;> rfl
@[simp] theorem scanSteps_mem : (s.scanSteps l).mem = s.mem := by unfold scanSteps; split <;> rfl
@[simp] theorem scanSteps_on : (s.scanSteps l).on = s.on := by unfold scanSteps; split <;> rfl
@[simp] theorem scanSteps_running : (s.scanSteps l).running = s.running := by unfold scanSteps; split <;> rfl
@[simp] theorem scanSteps_halted : (s.scanSteps l).halted = s.halted := by unfold scanSteps; split <;> rfl
@[simp] theorem scanSteps_prev : (s.scanSteps l).prev = s.prev := by unfold scanSteps; split <;> rfl
@[simp] theorem scanSteps_sw : (s.scanSteps l).sw = s.sw := by unfold scanSteps; split <;> rfl
@[simp] theorem scanSteps_mc : (s.scanSteps l).mc = s.mc := by unfold scanSteps; split <;> rfl
@[simp] theorem scanSteps_ic : (s.scanSteps l).ic = s.ic := by unfold scanSteps; split <;> rfl
@[simp] theorem scanSteps_label : (s.scanSteps l).label = s.label := by unfold scanSteps; split <;> rfl
@[simp] theorem scanSteps_keyIn : (s.scanSteps l).keyIn = s.keyIn := by unfold scanSteps; split <;> rfl
@[simp] theorem scanSteps_draws : (s.scanSteps l).draws = s.draws := by unfold scanSteps; split <;> rfl
@[simp] theorem scanSteps_inbox : (s.scanSteps l).inbox = s.inbox := by unfold scanSteps; split <;> rfl
@[simp] theorem scanSteps_reply : (s.scanSteps l).reply = s.reply := by unfold scanSteps; split <;> rfl
@[simp] theorem scanSteps_polarity : (s.scanSteps l).polarity = s.polarity := by unfold scanSteps; split <;> rfl
@[simp] theorem scanSteps_stepUnit : (s.scanSteps l).stepUnit = s.stepUnit := by unfold scanSteps; split <;> rfl

/-! ### `scanPowered` (R229) -/

@[simp] theorem scanPowered_a : (s.scanPowered l).a = s.a := by simp [scanPowered]
@[simp] theorem scanPowered_b : (s.scanPowered l).b = s.b := by simp [scanPowered]
@[simp] theorem scanPowered_ir : (s.scanPowered l).ir = s.ir := by simp [scanPowered]
@[simp] theorem scanPowered_mar : (s.scanPowered l).mar = s.mar := by simp [scanPowered]
@[simp] theorem scanPowered_carry : (s.scanPowered l).carry = s.carry := by simp [scanPowered]
@[simp] theorem scanPowered_zero : (s.scanPowered l).zero = s.zero := by simp [scanPowered]
@[simp] theorem scanPowered_on : (s.scanPowered l).on = s.on := by simp [scanPowered]
@[simp] theorem scanPowered_prev : (s.scanPowered l).prev = s.prev := by simp [scanPowered]
@[simp] theorem scanPowered_sw : (s.scanPowered l).sw = s.sw := by simp [scanPowered]
@[simp] theorem scanPowered_keyIn : (s.scanPowered l).keyIn = s.keyIn := by simp [scanPowered]
@[simp] theorem scanPowered_draws : (s.scanPowered l).draws = s.draws := by simp [scanPowered]
@[simp] theorem scanPowered_inbox : (s.scanPowered l).inbox = s.inbox := by simp [scanPowered]
@[simp] theorem scanPowered_reply : (s.scanPowered l).reply = s.reply := by simp [scanPowered]
@[simp] theorem scanPowered_polarity : (s.scanPowered l).polarity = s.polarity := by simp [scanPowered]
@[simp] theorem scanPowered_stepUnit : (s.scanPowered l).stepUnit = s.stepUnit := by simp [scanPowered]

/-! ### `scanIfOn` (R229) -/

@[simp] theorem scanIfOn_a : (s.scanIfOn l).a = s.a := by unfold scanIfOn; split <;> simp
@[simp] theorem scanIfOn_b : (s.scanIfOn l).b = s.b := by unfold scanIfOn; split <;> simp
@[simp] theorem scanIfOn_ir : (s.scanIfOn l).ir = s.ir := by unfold scanIfOn; split <;> simp
@[simp] theorem scanIfOn_mar : (s.scanIfOn l).mar = s.mar := by unfold scanIfOn; split <;> simp
@[simp] theorem scanIfOn_carry : (s.scanIfOn l).carry = s.carry := by unfold scanIfOn; split <;> simp
@[simp] theorem scanIfOn_zero : (s.scanIfOn l).zero = s.zero := by unfold scanIfOn; split <;> simp
@[simp] theorem scanIfOn_on : (s.scanIfOn l).on = s.on := by unfold scanIfOn; split <;> simp
@[simp] theorem scanIfOn_prev : (s.scanIfOn l).prev = s.prev := by unfold scanIfOn; split <;> simp
@[simp] theorem scanIfOn_sw : (s.scanIfOn l).sw = s.sw := by unfold scanIfOn; split <;> simp
@[simp] theorem scanIfOn_keyIn : (s.scanIfOn l).keyIn = s.keyIn := by unfold scanIfOn; split <;> simp
@[simp] theorem scanIfOn_draws : (s.scanIfOn l).draws = s.draws := by unfold scanIfOn; split <;> simp
@[simp] theorem scanIfOn_inbox : (s.scanIfOn l).inbox = s.inbox := by unfold scanIfOn; split <;> simp
@[simp] theorem scanIfOn_reply : (s.scanIfOn l).reply = s.reply := by unfold scanIfOn; split <;> simp
@[simp] theorem scanIfOn_polarity : (s.scanIfOn l).polarity = s.polarity := by unfold scanIfOn; split <;> simp
@[simp] theorem scanIfOn_stepUnit : (s.scanIfOn l).stepUnit = s.stepUnit := by unfold scanIfOn; split <;> simp

/-! ### `scanPower` (R230, R231) -/

@[simp] theorem scanPower_prev : (s.scanPower l).prev = s.prev := by unfold scanPower; split <;> [rfl; split] <;> rfl
@[simp] theorem scanPower_sw : (s.scanPower l).sw = s.sw := by unfold scanPower; split <;> [rfl; split] <;> rfl
@[simp] theorem scanPower_keyIn : (s.scanPower l).keyIn = s.keyIn := by unfold scanPower; split <;> [rfl; split] <;> rfl
@[simp] theorem scanPower_inbox : (s.scanPower l).inbox = s.inbox := by unfold scanPower; split <;> [rfl; split] <;> rfl
@[simp] theorem scanPower_reply : (s.scanPower l).reply = s.reply := by unfold scanPower; split <;> [rfl; split] <;> rfl
@[simp] theorem scanPower_polarity : (s.scanPower l).polarity = s.polarity := by unfold scanPower; split <;> [rfl; split] <;> rfl
@[simp] theorem scanPower_stepUnit : (s.scanPower l).stepUnit = s.stepUnit := by unfold scanPower; split <;> [rfl; split] <;> rfl

/-! ### `scanInputs` (R229) -/

@[simp] theorem scanInputs_keyIn (i : Inputs) : (s.scanInputs i).keyIn = s.keyIn := by simp [scanInputs]
@[simp] theorem scanInputs_inbox (i : Inputs) : (s.scanInputs i).inbox = s.inbox := by simp [scanInputs]
@[simp] theorem scanInputs_reply (i : Inputs) : (s.scanInputs i).reply = s.reply := by simp [scanInputs]
@[simp] theorem scanInputs_polarity (i : Inputs) : (s.scanInputs i).polarity = s.polarity := by simp [scanInputs]
@[simp] theorem scanInputs_stepUnit (i : Inputs) : (s.scanInputs i).stepUnit = s.stepUnit := by simp [scanInputs]

end Sys2Proof.Machine.State
end

