-- ==== Sys2Proof/Laws/Sequencer.lean ====
section
/-! SUPPORT. What no micro-op changes (40_sequencer R100 to R110, R121), and the machine cycles by their number. -/

namespace Sys2Proof.Machine

section
variable (m : MicroOp) (s : State)

@[simp] theorem apply_ir : (m.apply s).ir = s.ir := by
  cases m <;> first | rfl | (rename_i y; cases y <;> rfl) | simp [MicroOp.apply]
@[simp] theorem apply_on : (m.apply s).on = s.on := by
  cases m <;> first | rfl | (rename_i y; cases y <;> rfl) | simp [MicroOp.apply]
@[simp] theorem apply_mPending : (m.apply s).mPending = s.mPending := by
  cases m <;> first | rfl | (rename_i y; cases y <;> rfl) | simp [MicroOp.apply]
@[simp] theorem apply_iActive : (m.apply s).iActive = s.iActive := by
  cases m <;> first | rfl | (rename_i y; cases y <;> rfl) | simp [MicroOp.apply]
@[simp] theorem apply_prev : (m.apply s).prev = s.prev := by
  cases m <;> first | rfl | (rename_i y; cases y <;> rfl) | simp [MicroOp.apply]
@[simp] theorem apply_sw : (m.apply s).sw = s.sw := by
  cases m <;> first | rfl | (rename_i y; cases y <;> rfl) | simp [MicroOp.apply]
@[simp] theorem apply_mc : (m.apply s).mc = s.mc := by
  cases m <;> first | rfl | (rename_i y; cases y <;> rfl) | simp [MicroOp.apply]
@[simp] theorem apply_ic : (m.apply s).ic = s.ic := by
  cases m <;> first | rfl | (rename_i y; cases y <;> rfl) | simp [MicroOp.apply]
@[simp] theorem apply_label : (m.apply s).label = s.label := by
  cases m <;> first | rfl | (rename_i y; cases y <;> rfl) | simp [MicroOp.apply]
@[simp] theorem apply_inbox : (m.apply s).inbox = s.inbox := by
  cases m <;> first | rfl | (rename_i y; cases y <;> rfl) | simp [MicroOp.apply]
@[simp] theorem apply_reply : (m.apply s).reply = s.reply := by
  cases m <;> first | rfl | (rename_i y; cases y <;> rfl) | simp [MicroOp.apply]
@[simp] theorem apply_polarity : (m.apply s).polarity = s.polarity := by
  cases m <;> first | rfl | (rename_i y; cases y <;> rfl) | simp [MicroOp.apply]
@[simp] theorem apply_stepUnit : (m.apply s).stepUnit = s.stepUnit := by
  cases m <;> first | rfl | (rename_i y; cases y <;> rfl) | simp [MicroOp.apply]

end

/-- FETCH (R112). -/
theorem cycle_fetch {s : State} (h : s.mc = 0) : s.cycle = s.fetchCycle := by
  unfold State.cycle; rw [h]

/-- DECODE (R113). -/
theorem cycle_decode {s : State} (h : s.mc = 1) : s.cycle = s.decodeCycle := by
  unfold State.cycle; rw [h]

/-- EXECUTE (R114). -/
theorem cycle_execute {s : State} {c : Nat} (h : s.mc = c + 2) : s.cycle = s.executeCycle c := by
  unfold State.cycle; rw [h]

section
variable (s : State)

@[simp] theorem applyMicroOp_inbox (c : Nat) : (s.applyMicroOp c).inbox = s.inbox := by
  unfold State.applyMicroOp; split <;> simp
@[simp] theorem applyMicroOp_polarity (c : Nat) : (s.applyMicroOp c).polarity = s.polarity := by
  unfold State.applyMicroOp; split <;> simp
@[simp] theorem applyMicroOp_stepUnit (c : Nat) : (s.applyMicroOp c).stepUnit = s.stepUnit := by
  unfold State.applyMicroOp; split <;> simp
@[simp] theorem executeCycle_inbox (c : Nat) : (s.executeCycle c).inbox = s.inbox := by
  unfold State.executeCycle; split <;> simp
@[simp] theorem executeCycle_polarity (c : Nat) : (s.executeCycle c).polarity = s.polarity := by
  unfold State.executeCycle; split <;> simp
@[simp] theorem executeCycle_stepUnit (c : Nat) : (s.executeCycle c).stepUnit = s.stepUnit := by
  unfold State.executeCycle; split <;> simp
@[simp] theorem cycle_inbox : s.cycle.inbox = s.inbox := by unfold State.cycle; split <;> simp
@[simp] theorem cycle_polarity : s.cycle.polarity = s.polarity := by unfold State.cycle; split <;> simp
@[simp] theorem cycle_stepUnit : s.cycle.stepUnit = s.stepUnit := by unfold State.cycle; split <;> simp
@[simp] theorem update_inbox : s.update.inbox = s.inbox := by unfold State.update; repeat' split <;> try simp
@[simp] theorem update_polarity : s.update.polarity = s.polarity := by unfold State.update; repeat' split <;> try simp
@[simp] theorem update_stepUnit : s.update.stepUnit = s.stepUnit := by unfold State.update; repeat' split <;> try simp

end

/-- A tick of an armed machine is one cycle (R117). -/
theorem update_running {s : State} (hon : s.on = true) (hrun : s.running = true) : s.update = s.cycle := by
  simp [State.update, hon, hrun]

/-- A tick of a forced step is one cycle and the step's consumption (R117, R118). -/
theorem update_forced {s : State} (hon : s.on = true) (hrun : s.running = false) (hw : s.wantStep = true)
    (hh : s.halted = false) : s.update = s.cycle.consumeStep := by
  simp [State.update, hon, hrun, hw, hh]

/-- A powered machine with nothing requested idles (R117). -/
theorem update_idle {s : State} (hrun : s.running = false) (hw : s.wantStep = false) : s.update = s := by
  simp [State.update, hrun, hw]

/-- A machine that is off idles (R117). -/
theorem update_off {s : State} (hon : s.on = false) : s.update = s := by
  simp [State.update, hon]

/-- A micro-op reads neither the cycle counter nor the label (R116). -/
theorem apply_goto (m : MicroOp) (s : State) (n : Nat) (l : Label) :
    m.apply (s.goto n l) = (m.apply s).goto n l := by
  cases m <;> first
    | rfl
    | (rename_i x y; cases x <;> cases y <;> rfl)
    | (simp only [MicroOp.apply, State.inputKey]; cases h : s.keyIn <;> simp [State.goto, h])

/-- Only HALT changes `running` (R31). -/
theorem apply_running {m : MicroOp} (s : State) (h : m ≠ .halt) : (m.apply s).running = s.running := by
  cases m <;> first | exact absurd rfl h | rfl | (rename_i y; cases y <;> rfl) | simp [MicroOp.apply]

/-- Only HALT changes `halted` (R31). -/
theorem apply_halted {m : MicroOp} (s : State) (h : m ≠ .halt) : (m.apply s).halted = s.halted := by
  cases m <;> first | exact absurd rfl h | rfl | (rename_i y; cases y <;> rfl) | simp [MicroOp.apply]

/-- The cycle counter and the label left by a list of micro-ops do not show after the end of the instruction. -/
theorem applyAll_goto_endInstr (ops : List MicroOp) (s : State) (n : Nat) (l : Label) :
    ((s.goto n l).applyAll ops).endInstr = (s.applyAll ops).endInstr := by
  induction ops generalizing s with
  | nil => rfl
  | cons m rest ih => simp only [State.applyAll, apply_goto]; exact ih _

/-- Every entry has a micro-op (R121). -/
theorem microOps_ne_nil (op : BitVec 6) : (entry op).microOps ≠ [] := by revert op; decide

/-- HALT stands only at the end of a micro-op list of the table (R75, R211). -/
theorem halt_only_last (op : BitVec 6) : ∀ m ∈ (entry op).microOps.dropLast, m ≠ .halt := by
  revert op; decide

/-- The EXECUTE cycle in terms of its micro-op (R114). -/
theorem executeCycle_of {s : State} {c : Nat} {m : MicroOp}
    (h : (entry (opcodeOf s.ir)).microOps[c]? = some m) :
    s.executeCycle c = if c + 1 < (entry (opcodeOf s.ir)).microOps.length
      then (m.apply s).goto (c + 3) (labelAt s.ir (c + 3)) else (m.apply s).endInstr := by
  unfold State.executeCycle State.applyMicroOp; rw [h]

/-- The micro-ops from index `c` on, one a tick, on an armed machine (R114, R115, R117). -/
theorem updates_execute (ops : List MicroOp) (s : State) (c : Nat)
    (hon : s.on = true) (hrun : s.running = true) (hmc : s.mc = c + 2)
    (hops : (entry (opcodeOf s.ir)).microOps.drop c = ops) (hne : ops ≠ [])
    (hh : ∀ m ∈ ops.dropLast, m ≠ .halt) :
    s.updates ops.length = (s.applyAll ops).endInstr := by
  induction ops generalizing s c with
  | nil => exact absurd rfl hne
  | cons m rest ih =>
    have hget : (entry (opcodeOf s.ir)).microOps[c]? = some m := by
      rw [← Nat.add_zero c, ← List.getElem?_drop, hops]; rfl
    have hlen : (entry (opcodeOf s.ir)).microOps.length = c + (rest.length + 1) := by
      have h1 := congrArg List.length hops
      simp only [List.length_drop, List.length_cons] at h1; omega
    simp only [List.length_cons, State.updates, State.applyAll, update_running hon hrun, cycle_execute hmc,
      executeCycle_of hget]
    cases rest with
    | nil => simp [hlen, State.updates, State.applyAll]
    | cons m' rest' =>
      have hm : m ≠ .halt := hh m (by simp)
      rw [if_pos (by simp only [hlen, List.length_cons]; omega),
        ih ((m.apply s).goto (c + 3) (labelAt s.ir (c + 3))) (c + 1) (by simpa)
          (by simpa [apply_running s hm] using hrun) rfl
          (by simp only [State.goto_ir, apply_ir]; rw [← List.drop_drop, hops]; rfl) (by simp)
          (fun x hx => hh x (by simp only [List.dropLast_cons_cons]; exact List.mem_cons_of_mem _ hx))]
      exact applyAll_goto_endInstr _ _ _ _

/-- A whole instruction on an armed machine at FETCH, one machine cycle a tick: its micro-ops in order on the fetched word, then the
end of the instruction cycle (R111 to R115, R120). -/
theorem updates_instruction {s : State} (hon : s.on = true) (hrun : s.running = true) (hmc : s.mc = 0) :
    s.updates (cyclesOf (opcodeOf (s.memRead s.pc.toNat))) =
      (({ s with ir := s.memRead s.pc.toNat } : State).applyAll
        (entry (opcodeOf (s.memRead s.pc.toNat))).microOps).endInstr := by
  have h2 : s.updates 2 =
      ({ s with ir := s.memRead s.pc.toNat } : State).goto 2 (labelAt (s.memRead s.pc.toNat) 2) := by
    simp only [State.updates, update_running hon hrun, cycle_fetch hmc]
    rw [update_running (s := s.fetchCycle) hon hrun, cycle_decode rfl]; rfl
  have hadd : ∀ n, s.updates (n + 2) = (s.updates 2).updates n := fun n => rfl
  rw [cyclesOf, hadd, h2, ← applyAll_goto_endInstr]
  exact updates_execute _
    (({ s with ir := s.memRead s.pc.toNat } : State).goto 2 (labelAt (s.memRead s.pc.toNat) 2)) 0
    hon hrun rfl rfl (microOps_ne_nil _) (halt_only_last _)

end Sys2Proof.Machine
end

