-- ==== Sys2Proof/Laws/MicroOps.lean ====
section
/-! SUPPORT. `exec` of an instruction is the micro-ops of its table entry in order, on the fetched word, and the end of the instruction
cycle (40_sequencer R120); and the same micro-ops one a tick under an instruction step (R118). -/

namespace Sys2Proof.Machine

theorem add_two (p : Word) : p + 2 = p + 1 + 1 := by rw [BitVec.add_assoc]; rfl

section
variable (s : State) (x op : BitVec 6)

theorem runMemAlu_applyAll (f : AluFn) : s.runMemAlu x op f (s.memRead (s.pc + 1).toNat) =
    (({ s with ir := x ++ op } : State).applyAll
      [.incPc, .read .pc .mar, .read .mar .b, .alu f, .incPc]).endInstr := by
  rw [runMemAlu_eq, add_two]; rfl

theorem runImmAlu_applyAll (f : AluFn) : s.runImmAlu x op f (s.memRead (s.pc + 1).toNat) =
    (({ s with ir := x ++ op } : State).applyAll [.incPc, .read .pc .b, .alu f, .incPc]).endInstr := by
  rw [runImmAlu_eq, add_two]; rfl

theorem runAccAlu_applyAll (f : AluFn) : s.runAccAlu x op f =
    (({ s with ir := x ++ op } : State).applyAll [.alu f, .incPc]).endInstr := rfl

theorem runSkip_applyAll : s.runSkip x op =
    (({ s with ir := x ++ op } : State).applyAll [.incPc]).endInstr := rfl

theorem runJump_cond_applyAll (cond : Cond) : s.runJump x op (cond.holds s) (s.memRead (s.pc + 1).toNat) =
    (({ s with ir := x ++ op } : State).applyAll [.incPc, .jumpIf cond]).endInstr := by
  rw [runJump_eq, add_two]; cases cond <;> rfl

theorem runJump_always_applyAll : s.runJump x op true (s.memRead (s.pc + 1).toNat) =
    (({ s with ir := x ++ op } : State).applyAll [.incPc, .read .pc .pc]).endInstr := rfl

theorem execLdi_applyAll : execLdi x (s.memRead (s.pc + 1).toNat) s =
    .next (({ s with ir := x ++ 0o02#6 } : State).applyAll [.incPc, .read .pc .a, .incPc]).endInstr := by
  unfold execLdi; rw [add_two]; rfl

theorem execLda_applyAll : execLda x (s.memRead (s.pc + 1).toNat) s =
    .next (({ s with ir := x ++ 0o03#6 } : State).applyAll
      [.incPc, .read .pc .mar, .read .mar .a, .incPc]).endInstr := by
  unfold execLda; rw [add_two]; rfl

theorem execSta_applyAll : execSta x (s.memRead (s.pc + 1).toNat) s =
    .next (({ s with ir := x ++ 0o04#6 } : State).applyAll [.incPc, .read .pc .mar, .write, .incPc]).endInstr := by
  unfold execSta; rw [add_two]; rfl

theorem execKey_applyAll : execKey x s =
    .next (({ s with ir := x ++ 0o06#6 } : State).applyAll [.inputKey, .incPc]).endInstr := by
  simp only [execKey, State.applyAll, MicroOp.apply, State.inputKey, State.fetched]; cases s.keyIn <;> rfl

theorem execCall_applyAll : execCall x (s.memRead (s.pc + 1).toNat) s =
    .next (({ s with ir := x ++ 0o45#6 } : State).applyAll
      [.incPc, .read .pc .mar, .incPc, .writeCall, .loadPcMar]).endInstr := by
  unfold execCall; rw [add_two]; rfl

end

/-- An instruction whose operand is the word after PC is its entry's micro-ops in order, then the end of the cycle (R120). -/
theorem exec_applyAll (i : Instr) (s : State) (h : ∀ w, i.operand = some w → w = s.memRead (s.pc + 1).toNat) :
    exec i s = .next (({ s with ir := i.opcodeWord } : State).applyAll (entry i.opcode).microOps).endInstr := by
  cases i with
  | ldi x w => obtain rfl := h _ rfl; exact execLdi_applyAll s x
  | lda x w => obtain rfl := h _ rfl; exact execLda_applyAll s x
  | sta x w => obtain rfl := h _ rfl; exact execSta_applyAll s x
  | call x w => obtain rfl := h _ rfl; exact execCall_applyAll s x
  | key x => exact execKey_applyAll s x
  | inp x | hlt x | ret x => rfl
  | add x w | sub x w | and x w | or x w | xor x w | cmp x w =>
    obtain rfl := h _ rfl; exact congrArg Host.Outcome.next (runMemAlu_applyAll s x _ _)
  | adi x w | sui x w | ani x w | ori x w | xri x w | cpi x w =>
    obtain rfl := h _ rfl; exact congrArg Host.Outcome.next (runImmAlu_applyAll s x _ _)
  | inc x | dec x | rlc x | rrc x | ral x | rar x =>
    exact congrArg Host.Outcome.next (runAccAlu_applyAll s x _ _)
  | jmp x w => obtain rfl := h _ rfl; exact congrArg Host.Outcome.next (runJump_always_applyAll s x _)
  | jc x w => obtain rfl := h _ rfl; exact congrArg Host.Outcome.next (runJump_cond_applyAll s x _ .c)
  | jnc x w => obtain rfl := h _ rfl; exact congrArg Host.Outcome.next (runJump_cond_applyAll s x _ .nc)
  | jz x w => obtain rfl := h _ rfl; exact congrArg Host.Outcome.next (runJump_cond_applyAll s x _ .z)
  | jnz x w => obtain rfl := h _ rfl; exact congrArg Host.Outcome.next (runJump_cond_applyAll s x _ .nz)
  | _ x => exact congrArg Host.Outcome.next (runSkip_applyAll s x _)

/-- A micro-op reads neither step flag (R118). -/
theorem apply_setSteps (m : MicroOp) (s : State) (p q : Bool) :
    m.apply { s with mPending := p, iActive := q } = { m.apply s with mPending := p, iActive := q } := by
  cases m <;> first
    | rfl
    | (rename_i x y; cases x <;> cases y <;> rfl)
    | (simp only [MicroOp.apply, State.inputKey]; cases h : s.keyIn <;> rfl)

theorem applyAll_setSteps (ops : List MicroOp) (s : State) (p q : Bool) :
    ({ s with mPending := p, iActive := q } : State).applyAll ops =
      { s.applyAll ops with mPending := p, iActive := q } := by
  induction ops generalizing s with
  | nil => rfl
  | cons m rest ih => simp only [State.applyAll, apply_setSteps]; exact ih _

/-- A cycle that does not end the instruction cycle keeps an instruction step active (R118). -/
theorem consumeStep_inner {s : State} (hi : s.iActive = true) (hm : s.mc ≠ 0) (hh : s.halted = false) :
    s.consumeStep = { s with mPending := false, iActive := true } := by
  simp [State.consumeStep, hi, hm, hh]

/-- A cycle that ends the instruction cycle ends the step (R118). -/
theorem consumeStep_last {s : State} (hm : s.mc = 0) : s.consumeStep = { s with mPending := false, iActive := false } := by
  simp [State.consumeStep, hm]

/-- A tick of an instruction step on a machine that does not run (R117). -/
theorem update_iActive {s : State} (hon : s.on = true) (hrun : s.running = false) (hi : s.iActive = true)
    (hh : s.halted = false) : s.update = s.cycle.consumeStep :=
  update_forced hon hrun (by simp [State.wantStep, hi]) hh

/-- The micro-ops from index `c` on, one a tick, under an instruction step (R114, R115, R118). -/
theorem updates_execute_step (ops : List MicroOp) (s : State) (c : Nat)
    (hon : s.on = true) (hrun : s.running = false) (hi : s.iActive = true) (hh : s.halted = false)
    (hmc : s.mc = c + 2) (hops : (entry (opcodeOf s.ir)).microOps.drop c = ops) (hne : ops ≠ [])
    (hl : ∀ m ∈ ops.dropLast, m ≠ .halt) :
    s.updates ops.length = { (s.applyAll ops).endInstr with mPending := false, iActive := false } := by
  induction ops generalizing s c with
  | nil => exact absurd rfl hne
  | cons m rest ih =>
    have hget : (entry (opcodeOf s.ir)).microOps[c]? = some m := by
      rw [← Nat.add_zero c, ← List.getElem?_drop, hops]; rfl
    have hlen : (entry (opcodeOf s.ir)).microOps.length = c + (rest.length + 1) := by
      have h1 := congrArg List.length hops
      simp only [List.length_drop, List.length_cons] at h1; omega
    simp only [List.length_cons, State.updates, State.applyAll, update_iActive hon hrun hi hh, cycle_execute hmc,
      executeCycle_of hget]
    cases rest with
    | nil =>
      rw [if_neg (by simp [hlen])]
      exact consumeStep_last rfl
    | cons m' rest' =>
      have hm : m ≠ .halt := hl m (by simp)
      rw [if_pos (by simp only [hlen, List.length_cons]; omega),
        consumeStep_inner (by simpa) (by simp) (by simpa [apply_halted s hm] using hh),
        ih { (m.apply s).goto (c + 3) (labelAt s.ir (c + 3)) with mPending := false, iActive := true } (c + 1)
          (by simpa) (by simpa [apply_running s hm] using hrun) rfl (by simpa [apply_halted s hm] using hh) rfl
          (by simp only [State.goto_ir, apply_ir]; rw [← List.drop_drop, hops]; rfl) (by simp)
          (fun y hy => hl y (by simp only [List.dropLast_cons_cons]; exact List.mem_cons_of_mem _ hy)),
        applyAll_setSteps]
      exact congrArg (fun t : State => { t with mPending := false, iActive := false }) (applyAll_goto_endInstr _ _ _ _)

/-- A whole instruction under an instruction step from FETCH (R115, R118, R120, R234). -/
theorem updates_instruction_step {s : State} (hon : s.on = true) (hrun : s.running = false) (hi : s.iActive = true)
    (hh : s.halted = false) (hmc : s.mc = 0) :
    s.updates (cyclesOf (opcodeOf (s.memRead s.pc.toNat))) =
      { (({ s with ir := s.memRead s.pc.toNat } : State).applyAll
          (entry (opcodeOf (s.memRead s.pc.toNat))).microOps).endInstr with mPending := false, iActive := false } := by
  have h1 : s.update = { s.fetchCycle with mPending := false, iActive := true } := by
    rw [update_iActive hon hrun hi hh, cycle_fetch hmc]
    exact consumeStep_inner (s := s.fetchCycle) hi (by simp) hh
  have h2 : s.updates 2 = { ({ s with ir := s.memRead s.pc.toNat } : State).goto 2 (labelAt (s.memRead s.pc.toNat) 2) with
      mPending := false, iActive := true } := by
    simp only [State.updates, h1]
    rw [update_iActive (s := { s.fetchCycle with mPending := false, iActive := true }) hon hrun rfl hh,
      cycle_decode rfl]
    exact consumeStep_inner (s := State.decodeCycle { s.fetchCycle with mPending := false, iActive := true })
      rfl (by simp) hh
  have hadd : ∀ n, s.updates (n + 2) = (s.updates 2).updates n := fun n => rfl
  have h := updates_execute_step _
    { ({ s with ir := s.memRead s.pc.toNat } : State).goto 2 (labelAt (s.memRead s.pc.toNat) 2) with
      mPending := false, iActive := true } 0 hon hrun rfl hh rfl rfl (microOps_ne_nil _) (halt_only_last _)
  rw [applyAll_setSteps] at h
  rw [cyclesOf, hadd, h2]
  exact h.trans (congrArg (fun t : State => { t with mPending := false, iActive := false })
    (applyAll_goto_endInstr _ _ _ _))

/-- The instruction at an address has that address's word as opcode word and, for Format O, the next word as operand (R73). -/
theorem instrAt_parts (s : State) (p : Word) :
    (s.instrAt p).opcodeWord = s.memRead p.toNat ∧
      ∀ w, (s.instrAt p).operand = some w → w = s.memRead (p + 1).toNat := by
  have hf := fields_append (s.memRead p.toNat)
  unfold State.instrAt decodeWords
  generalize (s.memRead p.toNat).extractLsb' 6 6 = x at *
  generalize (s.memRead p.toNat).extractLsb' 0 6 = op at *
  rw [← hf]
  generalize s.memRead (p + 1).toNat = w1
  clear hf
  obtain ⟨n, hn⟩ : ∃ n, op.toNat = n := ⟨_, rfl⟩
  have hlt : n < 64 := by rw [← hn]; exact op.isLt
  have hop : op = BitVec.ofNat 6 n := by rw [← hn]; simp
  subst hop; clear hn
  interval_cases n <;> exact ⟨rfl, fun w hw => by cases hw <;> rfl⟩

end Sys2Proof.Machine
end

