-- ==== Sys2Proof/Laws/PerInstr.lean ====
section
/-! SUPPORT. The per-instruction family `WordCount`: every instruction has as many words as its table entry says (30_encoding R70,
R78). -/

namespace Sys2Proof.Laws.WordCount

/-- An instruction is its opcode word and its entry's operand words (30_encoding R70, R78). -/
def Statement (i : Instr) : Prop := (encode i).length = 1 + (Machine.entry i.opcode).operandCount

theorem nop (x : BitVec 6) : Statement (.nop x) := rfl
theorem hlt (x : BitVec 6) : Statement (.hlt x) := rfl
theorem ldi (x : BitVec 6) (w : Word) : Statement (.ldi x w) := rfl
theorem lda (x : BitVec 6) (w : Word) : Statement (.lda x w) := rfl
theorem sta (x : BitVec 6) (w : Word) : Statement (.sta x w) := rfl
theorem inp (x : BitVec 6) : Statement (.inp x) := rfl
theorem key (x : BitVec 6) : Statement (.key x) := rfl
theorem nop07 (x : BitVec 6) : Statement (.nop07 x) := rfl
theorem add (x : BitVec 6) (w : Word) : Statement (.add x w) := rfl
theorem sub (x : BitVec 6) (w : Word) : Statement (.sub x w) := rfl
theorem and (x : BitVec 6) (w : Word) : Statement (.and x w) := rfl
theorem or (x : BitVec 6) (w : Word) : Statement (.or x w) := rfl
theorem xor (x : BitVec 6) (w : Word) : Statement (.xor x w) := rfl
theorem cmp (x : BitVec 6) (w : Word) : Statement (.cmp x w) := rfl
theorem inc (x : BitVec 6) : Statement (.inc x) := rfl
theorem dec (x : BitVec 6) : Statement (.dec x) := rfl
theorem adi (x : BitVec 6) (w : Word) : Statement (.adi x w) := rfl
theorem sui (x : BitVec 6) (w : Word) : Statement (.sui x w) := rfl
theorem ani (x : BitVec 6) (w : Word) : Statement (.ani x w) := rfl
theorem ori (x : BitVec 6) (w : Word) : Statement (.ori x w) := rfl
theorem xri (x : BitVec 6) (w : Word) : Statement (.xri x w) := rfl
theorem cpi (x : BitVec 6) (w : Word) : Statement (.cpi x w) := rfl
theorem nop26 (x : BitVec 6) : Statement (.nop26 x) := rfl
theorem nop27 (x : BitVec 6) : Statement (.nop27 x) := rfl
theorem rlc (x : BitVec 6) : Statement (.rlc x) := rfl
theorem rrc (x : BitVec 6) : Statement (.rrc x) := rfl
theorem ral (x : BitVec 6) : Statement (.ral x) := rfl
theorem rar (x : BitVec 6) : Statement (.rar x) := rfl
theorem nop34 (x : BitVec 6) : Statement (.nop34 x) := rfl
theorem nop35 (x : BitVec 6) : Statement (.nop35 x) := rfl
theorem nop36 (x : BitVec 6) : Statement (.nop36 x) := rfl
theorem nop37 (x : BitVec 6) : Statement (.nop37 x) := rfl
theorem jmp (x : BitVec 6) (w : Word) : Statement (.jmp x w) := rfl
theorem jc (x : BitVec 6) (w : Word) : Statement (.jc x w) := rfl
theorem jnc (x : BitVec 6) (w : Word) : Statement (.jnc x w) := rfl
theorem jz (x : BitVec 6) (w : Word) : Statement (.jz x w) := rfl
theorem jnz (x : BitVec 6) (w : Word) : Statement (.jnz x w) := rfl
theorem call (x : BitVec 6) (w : Word) : Statement (.call x w) := rfl
theorem ret (x : BitVec 6) : Statement (.ret x) := rfl
theorem nop47 (x : BitVec 6) : Statement (.nop47 x) := rfl
theorem nop50 (x : BitVec 6) : Statement (.nop50 x) := rfl
theorem nop51 (x : BitVec 6) : Statement (.nop51 x) := rfl
theorem nop52 (x : BitVec 6) : Statement (.nop52 x) := rfl
theorem nop53 (x : BitVec 6) : Statement (.nop53 x) := rfl
theorem nop54 (x : BitVec 6) : Statement (.nop54 x) := rfl
theorem nop55 (x : BitVec 6) : Statement (.nop55 x) := rfl
theorem nop56 (x : BitVec 6) : Statement (.nop56 x) := rfl
theorem nop57 (x : BitVec 6) : Statement (.nop57 x) := rfl
theorem nop60 (x : BitVec 6) : Statement (.nop60 x) := rfl
theorem nop61 (x : BitVec 6) : Statement (.nop61 x) := rfl
theorem nop62 (x : BitVec 6) : Statement (.nop62 x) := rfl
theorem nop63 (x : BitVec 6) : Statement (.nop63 x) := rfl
theorem nop64 (x : BitVec 6) : Statement (.nop64 x) := rfl
theorem nop65 (x : BitVec 6) : Statement (.nop65 x) := rfl
theorem nop66 (x : BitVec 6) : Statement (.nop66 x) := rfl
theorem nop67 (x : BitVec 6) : Statement (.nop67 x) := rfl
theorem nop70 (x : BitVec 6) : Statement (.nop70 x) := rfl
theorem nop71 (x : BitVec 6) : Statement (.nop71 x) := rfl
theorem nop72 (x : BitVec 6) : Statement (.nop72 x) := rfl
theorem nop73 (x : BitVec 6) : Statement (.nop73 x) := rfl
theorem nop74 (x : BitVec 6) : Statement (.nop74 x) := rfl
theorem nop75 (x : BitVec 6) : Statement (.nop75 x) := rfl
theorem nop76 (x : BitVec 6) : Statement (.nop76 x) := rfl
theorem nop77 (x : BitVec 6) : Statement (.nop77 x) := rfl

end Sys2Proof.Laws.WordCount
end

