-- ==== Sys2Proof/Laws/Step.lean ====
section
/-! SUPPORT. The three forms of a step (log 1): a host action, a whole instruction, one tick. -/

namespace Sys2Proof.Machine

theorem step_action {s : State} {act : HostAction} {rest : List HostAction} (h : s.inbox = act :: rest) :
    step s = .next (({ s with inbox := rest } : State).perform act) := by
  unfold step; rw [h]

theorem step_instr {s t : State} {run : Bool} (h : s.inbox = []) (hs : s.startsInstr = true)
    (ht : exec (s.instrAt s.pc) s = .next t) (hr : s.running = run) : step s = .next (t.afterInstr (!run)) := by
  subst hr; unfold step; rw [h]; simp only [hs, if_true, ht]

theorem step_tick {s : State} (h : s.inbox = []) (hs : s.startsInstr = false) : step s = .next s.update := by
  unfold step; rw [h]; simp only [hs]; rfl

theorem startsInstr_armed {s : State} (hu : s.stepUnit = .instruction) (hon : s.on = true) (hmc : s.mc = 0)
    (hrun : s.running = true) : s.startsInstr = true := by simp [State.startsInstr, hu, hon, hmc, hrun]

theorem startsInstr_forced {s : State} (hu : s.stepUnit = .instruction) (hon : s.on = true) (hmc : s.mc = 0)
    (hi : s.iActive = true) (hh : s.halted = false) : s.startsInstr = true := by simp [State.startsInstr, hu, hon, hmc, hi, hh]

/-- A run whose first step goes on. -/
theorem run_succ_of_step (M : Host.Core) {s t : M.State} (h : M.step s = .next t) (n : Nat) : M.run (n + 1) s = M.run n t := by
  rw [Host.Core.run, h]

/-- Where a step is a tick, a run with the host idle goes on from the tick (R3, R119). -/
theorem run_succ_tick {s : State} (h : s.inbox = []) (hu : s.stepUnit = .tick) (n : Nat) :
    Sys2Proof.core.run (n + 1) s = Sys2Proof.core.run n s.update :=
  run_succ_of_step Sys2Proof.core (step_tick h (by simp [State.startsInstr, hu])) n

/-- The instruction at PC as its micro-ops (R120). -/
theorem exec_instrAt (s : State) : exec (s.instrAt s.pc) s =
    .next (({ s with ir := s.memRead s.pc.toNat } : State).applyAll
      (entry (opcodeOf (s.memRead s.pc.toNat))).microOps).endInstr := by
  obtain ⟨h1, h2⟩ := instrAt_parts s s.pc
  rw [exec_applyAll _ s h2, ← opcodeWord_opcode, h1]

end Sys2Proof.Machine
end

