-- ==== Sys2Proof/Machine/Assembler.lean ====
section
/-! DEFINITION. The assembler syntax of 30_encoding R80, by which the spec writes programs: text to a list of (address, word) pairs.
It is no part of a step. What R80 does not say of it is in log 22. -/

namespace Sys2Proof.Machine

/-- An operand: a number or a label (R80). -/
inductive AsmOperand where
  | num (n : Nat)
  | label (name : List Char)
  deriving DecidableEq, Repr

/-- A statement (R80). -/
inductive AsmStmt where
  /-- A mnemonic, as its opcode index, with the operand of a Format O one. -/
  | instr (op : BitVec 6) (operand : Option AsmOperand)
  /-- `.org a`: the location counter becomes `a`. -/
  | org (addr : Nat)
  /-- `.word v`: one word. -/
  | word (value : AsmOperand)
  deriving DecidableEq, Repr

/-- A line: R80's `[label:] MNEMONIC [operand]`; DESIGN CHOICE, log 22: either part may be missing. -/
structure AsmLine where
  label : Option (List Char)
  stmt : Option AsmStmt
  deriving DecidableEq, Repr

/-- Why a text does not assemble (log 22). -/
inductive AsmError where
  | badLine | unknownMnemonic | missingOperand | extraOperand | badOperand | duplicateLabel | unknownLabel
  deriving DecidableEq, Repr

/-- The value of a digit in base up to 16. -/
def digitValue (c : Char) : Nat :=
  if '0' ≤ c ∧ c ≤ '9' then c.toNat - 48
  else if 'a' ≤ c.toLower ∧ c.toLower ≤ 'f' then c.toLower.toNat - 87
  else 16

/-- Digits in a base, most significant first; `none` at a character that is no digit of it. -/
def digitsIn (base acc : Nat) : List Char → Option Nat
  | [] => some acc
  | c :: rest => if digitValue c < base then digitsIn base (acc * base + digitValue c) rest else none

/-- A number: octal with `0o`, hexadecimal with `0x`, else decimal (R80). DESIGN CHOICE, log 22: a prefix is lower case, a hexadecimal
digit either case. -/
def numberOf : List Char → Option Nat
  | '0' :: 'o' :: c :: rest => digitsIn 8 0 (c :: rest)
  | '0' :: 'x' :: c :: rest => digitsIn 16 0 (c :: rest)
  | c :: rest => digitsIn 10 0 (c :: rest)
  | [] => none

/-- A label name: a letter or an underscore, then letters, digits and underscores; case counts (DESIGN CHOICE, log 22). -/
def isLabelName : List Char → Bool
  | [] => false
  | c :: rest => (c.isAlpha || c == '_') && rest.all fun d => d.isAlphanum || d == '_'

/-- An operand of the text (R80). -/
def operandOf (cs : List Char) : Except AsmError AsmOperand :=
  match numberOf cs with
  | some n => .ok (.num n)
  | none => if isLabelName cs then .ok (.label cs) else .error .badOperand

/-- The opcode index of a mnemonic, whatever its case: the first row that has it, so `NOP` is 0o00 (R75, R80). -/
def opcodeNamed (cs : List Char) : Option Nat :=
  table.findIdx? fun e => e.mnemonic.toList == cs.map Char.toUpper

/-- A statement from its words: a Format O mnemonic requires one operand, a Format Z mnemonic takes none (R80). DESIGN CHOICE, log 22:
`.org` and `.word` are lower case, the operand of `.org` is a number and that of `.word` a number or a label, and no word at all is
no statement. -/
def stmtOf : List (List Char) → Except AsmError (Option AsmStmt)
  | [] => .ok none
  | ['.', 'o', 'r', 'g'] :: args =>
    match args with
    | [v] => match numberOf v with
      | some n => .ok (some (.org n))
      | none => .error .badOperand
    | _ => .error .badLine
  | ['.', 'w', 'o', 'r', 'd'] :: args =>
    match args with
    | [v] => (operandOf v).map fun o => some (.word o)
    | _ => .error .badLine
  | name :: args =>
    match opcodeNamed name with
    | none => .error .unknownMnemonic
    | some op =>
      match (entry (BitVec.ofNat 6 op)).operandCount, args with
      | 0, [] => .ok (some (.instr (BitVec.ofNat 6 op) none))
      | 0, _ => .error .extraOperand
      | _, [] => .error .missingOperand
      | _, [v] => (operandOf v).map fun o => some (.instr (BitVec.ofNat 6 op) (some o))
      | _, _ => .error .extraOperand

/-- The words of a line: what stands between blanks. -/
def wordsOf (cs : List Char) : List (List Char) :=
  (cs.splitOnP fun c => c == ' ' || c == '\t' || c == '\r').filter fun w => !w.isEmpty

/-- A line of the text: the comment dropped, the label before the colon taken off (R80). DESIGN CHOICE, log 22: a line with no statement
(blank, a comment or a label alone) is accepted, and a line has at most one colon. -/
def lineOf (cs : List Char) : Except AsmError AsmLine :=
  match (cs.takeWhile fun c => c != ';').splitOnP fun c => c == ':' with
  | [body] => (stmtOf (wordsOf body)).map fun st => { label := none, stmt := st }
  | [before, body] =>
    match wordsOf before with
    | [name] =>
      if isLabelName name then (stmtOf (wordsOf body)).map fun st => { label := some name, stmt := st }
      else .error .badLine
    | _ => .error .badLine
  | _ => .error .badLine

/-- The lines of a text, or the first error. -/
def linesOf : List (List Char) → Except AsmError (List AsmLine)
  | [] => .ok []
  | cs :: rest =>
    match lineOf cs, linesOf rest with
    | .ok l, .ok ls => .ok (l :: ls)
    | .error e, _ => .error e
    | _, .error e => .error e

/-- The location counter after a statement (R70, R80). DESIGN CHOICE, log 22: it is a natural number, neither wrapped nor refused past
`RAM_WORDS` or 2^N. -/
def AsmStmt.after (loc : Nat) : AsmStmt → Nat
  | .instr _ none => loc + 1
  | .instr _ (some _) => loc + 2
  | .org a => a
  | .word _ => loc + 1

/-- The location counter after a line. -/
def AsmLine.after (loc : Nat) (l : AsmLine) : Nat :=
  match l.stmt with
  | none => loc
  | some st => st.after loc

/-- First pass: every label with the location counter at its line. DESIGN CHOICE, log 22: also on a line with no statement; and on a line
with `.org` the label names the counter before the `.org`. -/
def labelsFrom (loc : Nat) : List AsmLine → List (List Char × Nat)
  | [] => []
  | l :: rest =>
    match l.label with
    | none => labelsFrom (l.after loc) rest
    | some name => (name, loc) :: labelsFrom (l.after loc) rest

/-- The operand word, `wrapN(value)` (R80). -/
def operandWord (labels : List (List Char × Nat)) : AsmOperand → Except AsmError Word
  | .num n => .ok (wrapN n)
  | .label name =>
    match labels.lookup name with
    | some loc => .ok (wrapN loc)
    | none => .error .unknownLabel

/-- The words of a statement at their addresses; the ignored bits are 0 (R80). -/
def stmtWords (labels : List (List Char × Nat)) (loc : Nat) : AsmStmt → Except AsmError (List (Nat × Word))
  | .instr op none => .ok [(loc, (0#6 ++ op : Word))]
  | .instr op (some o) => (operandWord labels o).map fun w => [(loc, (0#6 ++ op : Word)), (loc + 1, w)]
  | .org _ => .ok []
  | .word o => (operandWord labels o).map fun w => [(loc, w)]

/-- The words of a line. -/
def lineWords (labels : List (List Char × Nat)) (loc : Nat) (l : AsmLine) : Except AsmError (List (Nat × Word)) :=
  match l.stmt with
  | none => .ok []
  | some st => stmtWords labels loc st

/-- Second pass: the words of the lines from the location counter `loc` on. DESIGN CHOICE, log 22: of two statements at one address both
words stand, in the order of the text. -/
def wordsFrom (labels : List (List Char × Nat)) (loc : Nat) : List AsmLine → Except AsmError (List (Nat × Word))
  | [] => .ok []
  | l :: rest =>
    match lineWords labels loc l, wordsFrom labels (l.after loc) rest with
    | .ok ws, .ok more => .ok (ws ++ more)
    | .error e, _ => .error e
    | _, .error e => .error e

/-- The program text as (address, word) pairs in the order of the text (R80). DESIGN CHOICE, log 22: the location counter is 0 before
any `.org`. -/
def assemble (text : List Char) : Except AsmError (List (Nat × Word)) :=
  match linesOf (text.splitOnP fun c => c == '\n') with
  | .error e => .error e
  | .ok ls =>
    if ((labelsFrom 0 ls).map Prod.fst).Nodup then wordsFrom (labelsFrom 0 ls) 0 ls else .error .duplicateLabel

/-- The pairs written to memory in their order, each address wrapped (R52). DESIGN CHOICE, log 22: so of two words at one address the
later stays. -/
def State.loadImage (s : State) : List (Nat × Word) → State
  | [] => s
  | (a, w) :: rest => (s.memWrite a w).loadImage rest

end Sys2Proof.Machine
end

