-- ==== Sys2Proof/Tests/Slice0.lean ====
section
/-! SUPPORT. The model's own tests. Expected results are those of spec/95_test_vectors.md (the vector is named) or worked out by hand
from the rule named. The last part shows, for each statement with hypotheses, concrete states and operands that meet them. -/

namespace Sys2Proof.Tests

open Sys2Proof.Machine Sys2Proof.Certificates

/-- A field of the next state, if there is one. -/
def got {α : Type} (o : Host.Outcome State Fault Refusal) (f : State → α) : Option α :=
  match o with
  | .next t => some (f t)
  | .fault _ => none
  | .refused _ => none

/-- A powered machine, stopped at FETCH, with a few words of memory, in the instruction-level view (log 1). -/
def stopped (pc : Word) (cells : List (Nat × Word)) : State :=
  { State.reset with pc := pc, mem := cells.foldl (fun m c => m.write c.1 c.2) [], prev := onLine, stepUnit := .instruction }

/-- The same machine armed. -/
def armed (pc : Word) (cells : List (Nat × Word)) : State :=
  { stopped pc cells with running := true, prev := { onLine with run := true } }

/-- The one instruction of a list of words. -/
def instrOf (ws : List Word) : Option Instr :=
  match decode ws with
  | .ok (i, []) => some i
  | _ => none

/-! ### Well-formedness: an ill-formed term for each check -/

/-- R7: the reference instance passes every check. -/
theorem test_wf_reference : Config.reference.wf = true := by decide
/-- R7: K = 13 does not fit N = 12. -/
theorem test_wf_opcodeFits :
    ({ Config.reference with opcodeBits := 13 } : Params).opcodeFits = false ∧
      ({ Config.reference with opcodeBits := 13 } : Params).wf = false := by decide
/-- R7: CALL_ADDR = 64 is outside 64 words. -/
theorem test_wf_callAddr :
    ({ Config.reference with callAddr := 64 } : Params).callAddrInRam = false ∧
      ({ Config.reference with callAddr := 64 } : Params).wf = false := by decide
/-- R7: five opcode bits do not hold the map. -/
theorem test_wf_mapFits :
    ({ Config.reference with opcodeBits := 5 } : Params).mapFits = false ∧
      ({ Config.reference with opcodeBits := 5 } : Params).wf = false := by decide
/-- R7: 8192 words are not reachable through 12 bits. -/
theorem test_wf_ramReachable :
    ({ Config.reference with ramWords := 8192 } : Params).ramReachable = false ∧
      ({ Config.reference with ramWords := 8192 } : Params).wf = false := by decide
/-- R7: 96 words do not divide 4096. -/
theorem test_wf_wrapContiguous :
    ({ Config.reference with ramWords := 96 } : Params).wrapContiguous = false ∧
      ({ Config.reference with ramWords := 96 } : Params).wf = false := by decide
/-- R78: every entry of the table passes. -/
theorem test_wf_table : ∀ e ∈ table, e.wf = true := by decide
/-- R78: an entry with no micro-op. -/
theorem test_wf_nonempty : (Entry.mk "X" 0 [] []).nonempty = false ∧ (Entry.mk "X" 0 [] []).wf = false := by decide
/-- R121: an entry with a label its micro-op does not have. -/
theorem test_wf_labelled :
    (Entry.mk "X" 0 [.incPc] [.jump]).labelled = false ∧ (Entry.mk "X" 0 [.incPc] [.jump]).wf = false := by decide
/-- R78: an entry that reads one operand word and counts none. -/
theorem test_wf_operandsCounted :
    (Entry.mk "X" 0 [.read .pc .a] [.memRead]).operandsCounted = false ∧
      (Entry.mk "X" 0 [.read .pc .a] [.memRead]).wf = false := by decide

/-! ### Decoding: a word of every constructor, bit by bit (30_encoding R71, R75): six ignored bits, then the opcode -/

theorem test_decode_data :
    [[0b000000000000], [0b000001000001], [0b000010000010, 0b000000000101], [0b000000000011, 0b111111111111],
      [0b100000000100, 0b000000111111], [0b000000000101], [0b101101000110], [0b000000000111]].map instrOf =
    [some (.nop 0), some (.hlt 1), some (.ldi 2 5), some (.lda 0 0o7777), some (.sta 0b100000 0o77), some (.inp 0),
      some (.key 0b101101), some (.nop07 0)] := by decide
theorem test_decode_memAlu :
    [[0b000000001000, 0b000000100000], [0b000001001001, 0b000000000001], [0b000000001010, 0b100000000000],
      [0b000000001011, 0b000000000010], [0b000000001100, 0b010000000000], [0b111111001101, 0b000000000000],
      [0b101101001110], [0b000000001111]].map instrOf =
    [some (.add 0 0o40), some (.sub 1 1), some (.and 0 0o4000), some (.or 0 2), some (.xor 0 0o2000),
      some (.cmp 0o77 0), some (.inc 0o55), some (.dec 0)] := by decide
theorem test_decode_immAlu :
    [[0b000000010000, 0b000000000100], [0b000000010001, 0b000000000001], [0b000000010010, 0b000111000111],
      [0b000100010011, 0b100000000001], [0b000000010100, 0b111111111111], [0b000000010101, 0b000000000101],
      [0b000000010110], [0b000011010111]].map instrOf =
    [some (.adi 0 4), some (.sui 0 1), some (.ani 0 0o707), some (.ori 4 0o4001), some (.xri 0 0o7777),
      some (.cpi 0 5), some (.nop26 0), some (.nop27 3)] := by decide
theorem test_decode_rotate :
    [[0b000000011000], [0b000000011001], [0b000001011010], [0b110000011011], [0b000000011100], [0b000000011101],
      [0b000000011110], [0b000000011111]].map instrOf =
    [some (.rlc 0), some (.rrc 0), some (.ral 1), some (.rar 0b110000), some (.nop34 0), some (.nop35 0),
      some (.nop36 0), some (.nop37 0)] := by decide
theorem test_decode_control :
    [[0b000000100000, 0b111111111110], [0b000000100001, 0b000000010000], [0b000000100010, 0b000000010000],
      [0b000000100011, 0b000000011000], [0b000000100100, 0b000000001000], [0b000000100101, 0b000000010000],
      [0b000001100110], [0b000000100111]].map instrOf =
    [some (.jmp 0 0o7776), some (.jc 0 0o20), some (.jnc 0 0o20), some (.jz 0 0o30), some (.jnz 0 0o10),
      some (.call 0 0o20), some (.ret 1), some (.nop47 0)] := by decide
theorem test_decode_reserved5 :
    [[0b000000101000], [0b000000101001], [0b000000101010], [0b000000101011], [0b000000101100], [0b000000101101],
      [0b000000101110], [0b000000101111]].map instrOf =
    [some (.nop50 0), some (.nop51 0), some (.nop52 0), some (.nop53 0), some (.nop54 0), some (.nop55 0),
      some (.nop56 0), some (.nop57 0)] := by decide
theorem test_decode_reserved6 :
    [[0b000000110000], [0b000000110001], [0b000000110010], [0b000000110011], [0b000000110100], [0b000000110101],
      [0b000000110110], [0b000000110111]].map instrOf =
    [some (.nop60 0), some (.nop61 0), some (.nop62 0), some (.nop63 0), some (.nop64 0), some (.nop65 0),
      some (.nop66 0), some (.nop67 0)] := by decide
theorem test_decode_reserved7 :
    [[0b000000111000], [0b000000111001], [0b000000111010], [0b000000111011], [0b000000111100], [0b000000111101],
      [0b000000111110], [0b111111111111]].map instrOf =
    [some (.nop70 0), some (.nop71 0), some (.nop72 0), some (.nop73 0), some (.nop74 0), some (.nop75 0),
      some (.nop76 0), some (.nop77 0o77)] := by decide
/-- A stream that ends before the operand word is refused by name. -/
theorem test_decode_short : (match decode [0o0002] with | .error e => some e | .ok _ => none) = some .noOperandWord := by
  decide
/-- CALL with a zero operand, 24 bits, and INC with ignored bits, 12 bits: the first word is the low twelve bits (log 25). -/
theorem test_decodeTableWord :
    decodeTableWord 24 0b000000010000000000100101 = some (.call 0 0o20) ∧
      decodeTableWord 12 0b101101001110 = some (.inc 0o55) := by decide
/-- The next step of the placed machine runs the instruction: ADI 4 from zero. -/
theorem test_withFetchWord :
    got (step (State.reset.withFetchWord 24 0b000000000100000000010000)) (fun t => (t.a, t.pc, t.ic)) = some (4, 2, 1) := by
  decide

/-- R3, R119: where a step is a tick, as after reset, one step from FETCH is the FETCH cycle. -/
theorem test_step_is_tick :
    State.reset.stepUnit = .tick ∧
    got (step { armed 0 [(0, 0o0020), (1, 4)] with stepUnit := .tick }) (fun t => (t.mc, t.ir, t.pc, t.label)) =
      some (1, 0o20, 0, .decode) := by decide

/-! ### Data movement -/

/-- V-DM-1. -/
theorem test_ldi_keeps_flags :
    got (step { armed 0 [(0, 0o0002), (1, 5)] with carry := true, zero := true })
      (fun t => (t.a, t.pc, t.carry, t.zero)) = some (5, 2, true, true) := by decide
/-- V-DM-2: the operand is at address 0. -/
theorem test_ldi_wraps :
    got (step (armed 0o7777 [(0o77, 0o0002), (0, 0o0123)])) (fun t => (t.a, t.pc)) = some (0o0123, 1) := by decide
/-- V-DM-5. -/
theorem test_lda_wraps :
    got (step (armed 0 [(0, 0o0003), (1, 0o0105), (5, 0o0777)])) (fun t => (t.a, t.mar, t.pc)) =
      some (0o0777, 0o0105, 2) := by decide
/-- V-DM-6: it loads its own operand word. -/
theorem test_lda_own_operand :
    got (step (armed 0 [(0, 0o0003), (1, 1)])) (fun t => (t.a, t.mar)) = some (1, 1) := by decide
/-- V-DM-7. -/
theorem test_sta :
    got (step { armed 2 [(2, 0o0004), (3, 0o0077)] with a := 5 }) (fun t => (t.memRead 0o77, t.mar, t.pc)) =
      some (5, 0o77, 4) := by decide
/-- V-DM-8: it overwrites its own opcode word. -/
theorem test_sta_own_word :
    got (step { armed 2 [(2, 0o0004), (3, 2)] with a := 0o46 }) (fun t => (t.memRead 2, t.memRead 3, t.pc)) =
      some (0o46, 2, 4) := by decide
/-- V-DM-10. -/
theorem test_in :
    got (step { armed 5 [(5, 0o0005)] with sw := 0o707 }) (fun t => (t.a, t.pc, t.zero)) = some (0o707, 6, false) := by
  decide
/-- V-DM-12. -/
theorem test_key_supplied :
    got (step { armed 6 [(6, 0o0006)] with keyIn := some 0o101 }) (fun t => (t.a, t.pc, t.keyIn)) =
      some (0o101, 7, none) := by decide
/-- V-DM-13: the rest of the effect, whatever the word is. -/
theorem test_key_free :
    got (step { armed 6 [(6, 0o0006)] with carry := true }) (fun t => (t.pc, t.carry, t.zero, t.draws)) =
      some (7, true, false, 1) := by decide

/-! ### ALU functions under both polarities (V-ALU-1 to V-ALU-35) -/

/-- A result and its flags. -/
def alu3 (pol : Polarity) (f : AluFn) (a b : Word) (c : Bool) : Word × Bool × Bool :=
  ((aluOut pol f a b c).a, (aluOut pol f a b c).carry, (aluOut pol f a b c).zero)

/-- V-ALU-1 to V-ALU-4. -/
theorem test_alu_add :
    [alu3 .notBorrow .add 0o7777 1 false, alu3 .borrow .add 0o7777 0o7777 false, alu3 .notBorrow .add 1 2 true,
      alu3 .borrow .add 0 0 true] =
    [(0, true, true), (0o7776, true, false), (3, false, false), (0, false, true)] := by decide
/-- V-ALU-5 to V-ALU-9, NOT_BORROW. -/
theorem test_alu_sub_notBorrow :
    [alu3 .notBorrow .sub 3 5 false, alu3 .notBorrow .sub 5 3 false, alu3 .notBorrow .sub 5 5 false,
      alu3 .notBorrow .sub 0o1234 0 false, alu3 .notBorrow .sub 0 0o7777 false] =
    [(0o7776, false, false), (2, true, false), (0, true, true), (0o1234, true, false), (1, false, false)] := by decide
/-- V-ALU-5 to V-ALU-9, BORROW. -/
theorem test_alu_sub_borrow :
    [alu3 .borrow .sub 3 5 false, alu3 .borrow .sub 5 3 false, alu3 .borrow .sub 5 5 false,
      alu3 .borrow .sub 0o1234 0 false, alu3 .borrow .sub 0 0o7777 false] =
    [(0o7776, true, false), (2, false, false), (0, false, true), (0o1234, false, false), (1, true, false)] := by decide
/-- V-ALU-10 to V-ALU-13. -/
theorem test_alu_cmp :
    [alu3 .notBorrow .cmp 5 5 false, alu3 .borrow .cmp 0 1 false, alu3 .notBorrow .cmp 0o7777 0 false,
      alu3 .borrow .cmp 0 0 true] =
    [(5, true, true), (0, true, false), (0o7777, true, false), (0, false, true)] := by decide
/-- V-ALU-14 to V-ALU-18. -/
theorem test_alu_inc_dec :
    [alu3 .notBorrow .inc 0o7777 9 false, alu3 .borrow .inc 5 9 true, alu3 .notBorrow .dec 0 9 false,
      alu3 .borrow .dec 1 9 false, alu3 .notBorrow .dec 3 9 false] =
    [(0, true, true), (6, false, false), (0o7777, false, false), (0, false, true), (2, true, false)] := by decide
/-- V-ALU-19 to V-ALU-24. -/
theorem test_alu_logic :
    [alu3 .notBorrow .and 0o7070 0o0770 true, alu3 .notBorrow .and 0o7070 0o0707 true,
      alu3 .notBorrow .or 0o7070 0o0707 true, alu3 .borrow .or 0 0 true, alu3 .notBorrow .xor 0o1234 0o1234 true,
      alu3 .borrow .xor 0o1234 0o7777 false] =
    [(0o0070, false, false), (0, false, true), (0o7777, false, false), (0, false, true), (0, false, true),
      (0o6543, false, false)] := by decide
/-- V-ALU-25 to V-ALU-29. -/
theorem test_alu_circular :
    [alu3 .notBorrow .rlc 0o4001 0 false, alu3 .notBorrow .rlc 0 0 true, alu3 .borrow .rlc 0o7777 0 false,
      alu3 .notBorrow .rrc 1 0 false, alu3 .notBorrow .rrc 2 0 true] =
    [(3, true, false), (0, false, true), (0o7777, true, false), (0o4000, true, false), (1, false, false)] := by decide
/-- V-ALU-30 to V-ALU-35. -/
theorem test_alu_throughCarry :
    [alu3 .notBorrow .ral 0o4000 0 false, alu3 .notBorrow .ral 0o4000 0 true, alu3 .borrow .ral 1 0 true,
      alu3 .notBorrow .rar 2 0 true, alu3 .notBorrow .rar 1 0 false, alu3 .borrow .rar 1 0 true] =
    [(0, true, true), (1, true, false), (3, false, false), (0o4001, false, false), (0, true, true),
      (0o4000, true, false)] := by decide

/-! ### ALU instructions -/

/-- V-ALU-40. -/
theorem test_add :
    got (step { armed 0 [(0, 0o0010), (1, 0o0040), (0o40, 1)] with a := 0o7777 })
      (fun t => (t.a, t.carry, t.zero, t.b, t.mar, t.pc)) = some (0, true, true, 1, 0o40, 2) := by decide
/-- V-ALU-41. -/
theorem test_sub :
    got (step { armed 0 [(0, 0o0011), (1, 0o0040), (0o40, 3)] with a := 5 })
      (fun t => (t.a, t.carry, t.zero, t.pc)) = some (2, true, false, 2) := by decide
/-- V-ALU-41 on a machine that runs with BORROW. -/
theorem test_sub_borrow :
    got (step { armed 0 [(0, 0o0011), (1, 0o0040), (0o40, 3)] with a := 5, polarity := .borrow })
      (fun t => (t.a, t.carry, t.zero, t.pc)) = some (2, false, false, 2) := by decide
/-- R157 on V-ALU-19's operands; the address wraps. -/
theorem test_and :
    got (step { armed 0 [(0, 0o0012), (1, 0o0140), (0o40, 0o0770)] with a := 0o7070, carry := true })
      (fun t => (t.a, t.carry, t.zero, t.b, t.mar)) = some (0o70, false, false, 0o770, 0o140) := by decide
/-- R158 on V-ALU-21's operands. -/
theorem test_or :
    got (step { armed 0 [(0, 0o0013), (1, 0o0040), (0o40, 0o0707)] with a := 0o7070, carry := true })
      (fun t => (t.a, t.carry, t.zero)) = some (0o7777, false, false) := by decide
/-- R159 on V-ALU-23's operands. -/
theorem test_xor :
    got (step { armed 0 [(0, 0o0014), (1, 0o0040), (0o40, 0o1234)] with a := 0o1234, carry := true })
      (fun t => (t.a, t.carry, t.zero)) = some (0, false, true) := by decide
/-- V-ALU-42. -/
theorem test_cmp :
    got (step { armed 0 [(0, 0o0015), (1, 0o0040), (0o40, 5)] with a := 5 })
      (fun t => (t.a, t.carry, t.zero, t.b, t.mar)) = some (5, true, true, 5, 0o40) := by decide
/-- V-ALU-43. -/
theorem test_adi :
    got (step { armed 0 [(0, 0o0020), (1, 4)] with mar := 0o33 })
      (fun t => (t.a, t.carry, t.zero, t.b, t.mar, t.pc)) = some (4, false, false, 4, 0o33, 2) := by decide
/-- V-ALU-44. -/
theorem test_sui :
    got (step (armed 0 [(0, 0o0021), (1, 1)])) (fun t => (t.a, t.carry, t.zero)) = some (0o7777, false, false) := by decide
/-- V-ALU-45: subtracting zero borrows nothing. -/
theorem test_sui_zero :
    got (step { armed 0 [(0, 0o0021)] with a := 0o42 }) (fun t => (t.a, t.carry, t.zero)) =
      some (0o42, true, false) := by decide
/-- V-ALU-46. -/
theorem test_ani :
    got (step { armed 0 [(0, 0o0022), (1, 0o707)] with a := 0o7070 }) (fun t => (t.a, t.carry, t.zero)) =
      some (0, false, true) := by decide
/-- R164 on V-ALU-21's operands. -/
theorem test_ori :
    got (step { armed 0 [(0, 0o0023), (1, 0o707)] with a := 0o7070, carry := true })
      (fun t => (t.a, t.carry, t.zero, t.b)) = some (0o7777, false, false, 0o707) := by decide
/-- V-ALU-47. -/
theorem test_xri :
    got (step { armed 0 [(0, 0o0024), (1, 0o7777)] with a := 0o1234 }) (fun t => (t.a, t.carry, t.zero)) =
      some (0o6543, false, false) := by decide
/-- V-ALU-48. -/
theorem test_cpi :
    got (step { armed 0 [(0, 0o0025), (1, 5)] with a := 3 }) (fun t => (t.a, t.carry, t.zero)) =
      some (3, false, false) := by decide
/-- V-ALU-49. -/
theorem test_inc :
    got (step { armed 0o10 [(0o10, 0o0016)] with a := 0o7777, b := 9 }) (fun t => (t.a, t.carry, t.zero, t.b, t.pc)) =
      some (0, true, true, 9, 0o11) := by decide
/-- V-ALU-50. -/
theorem test_dec :
    got (step (armed 0o10 [(0o10, 0o0017)])) (fun t => (t.a, t.carry, t.zero, t.pc)) =
      some (0o7777, false, false, 0o11) := by decide
/-- V-ALU-51. -/
theorem test_rlc :
    got (step { armed 0o10 [(0o10, 0o0030)] with a := 0o4001 }) (fun t => (t.a, t.carry, t.zero, t.pc)) =
      some (3, true, false, 0o11) := by decide
/-- R170 on V-ALU-28's operand. -/
theorem test_rrc :
    got (step { armed 0o10 [(0o10, 0o0031)] with a := 1 }) (fun t => (t.a, t.carry, t.zero, t.pc)) =
      some (0o4000, true, false, 0o11) := by decide
/-- R171 on V-ALU-31's operands. -/
theorem test_ral :
    got (step { armed 0o10 [(0o10, 0o0032)] with a := 0o4000, carry := true }) (fun t => (t.a, t.carry, t.zero)) =
      some (1, true, false) := by decide
/-- V-ALU-52. -/
theorem test_rar :
    got (step { armed 0o10 [(0o10, 0o0033)] with a := 1 }) (fun t => (t.a, t.carry, t.zero, t.pc)) =
      some (0, true, true, 0o11) := by decide

/-! ### Control transfer -/

/-- V-CTL-1: the target is not reduced. -/
theorem test_jmp :
    got (step (armed 0 [(0, 0o0040), (1, 0o7776)])) (fun t => t.pc) = some 0o7776 := by decide
/-- V-CTL-3: the operand is at address 0. -/
theorem test_jmp_wraps :
    got (step (armed 0o7777 [(0o77, 0o0040), (0, 0o0020)])) (fun t => t.pc) = some 0o20 := by decide
/-- V-CTL-4. -/
theorem test_jc_taken :
    got (step { armed 0o10 [(0o10, 0o0041), (0o11, 0o0020)] with carry := true }) (fun t => (t.pc, t.carry)) =
      some (0o20, true) := by decide
/-- V-CTL-12: not taken, PC wraps. -/
theorem test_jc_wraps :
    got (step (armed 0o7776 [(0o76, 0o0041), (0o77, 0o0020)])) (fun t => t.pc) = some 0 := by decide
/-- V-CTL-6. -/
theorem test_jnc_taken :
    got (step (armed 0o10 [(0o10, 0o0042), (0o11, 0o0020)])) (fun t => t.pc) = some 0o20 := by decide
/-- V-CTL-7. -/
theorem test_jnc_through :
    got (step { armed 0o10 [(0o10, 0o0042), (0o11, 0o0020)] with carry := true }) (fun t => t.pc) = some 0o12 := by decide
/-- V-CTL-8. -/
theorem test_jz_taken :
    got (step { armed 0o10 [(0o10, 0o0043), (0o11, 0o0030)] with zero := true }) (fun t => t.pc) = some 0o30 := by decide
/-- V-CTL-9. -/
theorem test_jz_through :
    got (step (armed 0o10 [(0o10, 0o0043), (0o11, 0o0030)])) (fun t => t.pc) = some 0o12 := by decide
/-- V-CTL-10. -/
theorem test_jnz_taken :
    got (step (armed 0o10 [(0o10, 0o0044), (0o11, 0o0010)])) (fun t => t.pc) = some 0o10 := by decide
/-- V-CTL-11. -/
theorem test_jnz_through :
    got (step { armed 0o10 [(0o10, 0o0044), (0o11, 0o0010)] with zero := true }) (fun t => t.pc) = some 0o12 := by decide
/-- V-CTL-13. -/
theorem test_call :
    got (step (armed 2 [(2, 0o0045), (3, 0o0020)])) (fun t => (t.memRead 0o77, t.pc, t.mar)) =
      some (4, 0o20, 0o20) := by decide
/-- V-CTL-15: its operand is at CALL_ADDR. -/
theorem test_call_operand_at_slot :
    got (step (armed 0o76 [(0o76, 0o0045), (0o77, 0o0030)])) (fun t => (t.memRead 0o77, t.pc, t.mar)) =
      some (0o100, 0o30, 0o30) := by decide
/-- V-CTL-16. -/
theorem test_ret :
    got (step (armed 0o22 [(0o22, 0o0046), (0o77, 4)])) (fun t => (t.pc, t.memRead 0o77)) = some (4, 4) := by decide
/-- V-CTL-17. -/
theorem test_ret_whole_word :
    got (step (armed 0o22 [(0o22, 0o0046), (0o77, 0o7777)])) (fun t => t.pc) = some 0o7777 := by decide

/-! ### System -/

/-- E3: NOP at the largest PC. -/
theorem test_nop_wraps :
    got (step { armed 0o7777 [] with a := 3 }) (fun t => (t.pc, t.a, t.ic)) = some (0, 3, 1) := by decide
/-- V-SYS-2. -/
theorem test_hlt :
    got (step (armed 4 [(4, 0o0001)])) (fun t => (t.pc, t.halted, t.running, t.mc)) = some (5, true, false, 0) := by decide
/-- V-SYS-3. -/
theorem test_reserved77 :
    got (step { armed 0o40 [(0o40, 0o0077)] with a := 1, b := 2, mar := 3, carry := true })
      (fun t => [t.pc, t.ir, t.a, t.b, t.mar]) = some [0o41, 0o77, 1, 2, 3] := by decide
/-- V-SYS-5: every reserved index. -/
theorem test_reserved_all :
    ∀ w ∈ ([0o07, 0o26, 0o27, 0o34, 0o35, 0o36, 0o37, 0o47] ++ (List.range 24).map (40 + ·)),
      got (step (armed 0o10 [(0o10, BitVec.ofNat 12 w)])) (fun t => (t.pc, t.ir, t.a, t.halted)) =
        some (0o11, BitVec.ofNat 12 w, 0, false) := by decide

/-! ### Sequencer, panel, power and reset -/

/-- The program of 95_test_vectors section 2.6, stopped at 0. -/
def panel : State := stopped 0 [(0, 0o0002), (1, 5), (2, 0o0001)]

/-- The named lines with `on` high. -/
def scan (l : Lines) (s : State) : State := s.scanInputs { lines := { l with on := true }, switches := s.sw.toNat }

/-- V-SEQ-1 to V-SEQ-3. -/
theorem test_seq_fetch_decode_execute :
    [1, 2, 3].map (fun n => ((armed 0 [(0, 0o0002)]).updates n).mc) = [1, 2, 3] ∧
    [1, 2, 3].map (fun n => ((armed 0 [(0, 0o0002)]).updates n).label) = [.decode, .incPc, .memRead] ∧
    [1, 2, 3].map (fun n => ((armed 0 [(0, 0o0002)]).updates n).pc) = [0, 0, 1] := by decide
/-- V-SEQ-7: running takes precedence and consumes nothing. -/
theorem test_seq_running_first :
    ({ armed 0 [(0, 0o0002)] with mPending := true } : State).update.mPending = true ∧
    ({ armed 0 [(0, 0o0002)] with mPending := true } : State).update.mc = 1 := by decide
/-- V-PAN-1 and V-PAN-2. -/
theorem test_pan_mstep_once :
    (scan { Lines.low with mStep := true } panel).update.mc = 1 ∧
    (scan { Lines.low with mStep := true } (scan { Lines.low with mStep := true } panel).update).update.mc = 1 := by decide
/-- V-PAN-4: an instruction step on a partly run LDI runs three cycles. -/
theorem test_pan_istep_finishes :
    [1, 2, 3, 4].map (fun n =>
      ((scan { Lines.low with iStep := true } { panel with mc := 2, ir := 2, label := .incPc }).updates n).mc) =
      [3, 4, 0, 0] ∧
    ((scan { Lines.low with iStep := true } { panel with mc := 2, ir := 2, label := .incPc }).updates 4).a = 5 := by decide
/-- V-PAN-10: a reset while run is held high leaves the machine stopped. -/
theorem test_pan_reset_run_held :
    (scan { Lines.low with run := true, reset := true } { panel with pc := 3, halted := true, prev := { onLine with run := true } }).running
      = false ∧
    (scan { Lines.low with run := true, reset := true } { panel with pc := 3, halted := true, prev := { onLine with run := true } }).halted
      = false := by decide
/-- R222, R229: a reset edge with a rising run line arms a halted machine at PC 0. -/
theorem test_pan_reset_run_rises :
    (scan { Lines.low with run := true, reset := true } { panel with pc := 3, halted := true }).running = true ∧
    (scan { Lines.low with run := true, reset := true } { panel with pc := 3, halted := true }).pc = 0 ∧
    (scan { Lines.low with run := true } { panel with pc := 3, halted := true }).running = false := by decide
/-- R229: examine, examine next, deposit, deposit next in one scan of the switch word 0o10, in this order. -/
theorem test_pan_all_lines :
    (scan { Lines.low with examine := true, examineNext := true, deposit := true, depositNext := true }
      { panel with sw := 0o10 }).pc = 0o12 ∧
    (scan { Lines.low with examine := true, examineNext := true, deposit := true, depositNext := true }
      { panel with sw := 0o10 }).mem = [(0, 2), (1, 5), (2, 1), (9, 8), (10, 8)] := by decide
/-- V-PAN-13 and V-PAN-16: examine and examine next. -/
theorem test_pan_examine :
    (scan { Lines.low with examine := true } { panel with sw := 0o10, mc := 3 }).pc = 0o10 ∧
    (scan { Lines.low with examine := true } { panel with sw := 0o10, mc := 3 }).mc = 0 ∧
    (scan { Lines.low with examineNext := true } { panel with pc := 0o11 }).pc = 0o12 := by decide
/-- V-PAN-14 and V-PAN-15: deposit and deposit next. -/
theorem test_pan_deposit :
    (scan { Lines.low with deposit := true } { panel with pc := 0o10, sw := 0o1234 }).memRead 0o10 = 0o1234 ∧
    (scan { Lines.low with depositNext := true } { panel with pc := 0o10, sw := 0o4321 }).memRead 0o11 = 0o4321 ∧
    (scan { Lines.low with depositNext := true } { panel with pc := 0o10, sw := 0o4321 }).pc = 0o11 := by decide
/-- V-PAN-17: thirteen switch bits. -/
theorem test_pan_switches :
    (panel.scanInputs { lines := onLine, switches := 0o14321 }).sw = 0o4321 := by decide
/-- V-PAN-18: deposit while running. -/
theorem test_pan_deposit_running :
    (scan { Lines.low with run := true, deposit := true } { armed 1 [(1, 7)] with sw := 0o7777 }).mem = [(1, 7)] := by
  decide
/-- V-PAN-20: what power-on clears, whatever the draws are. -/
theorem test_pan_powerOn :
    (State.scanInputs { panel with on := false, prev := Lines.low, carry := true, halted := true, ic := 9, mc := 3 }
        { lines := onLine, switches := 0 }).carry = false ∧
    (State.scanInputs { panel with on := false, prev := Lines.low, carry := true, halted := true, ic := 9, mc := 3 }
        { lines := onLine, switches := 0 }).halted = false ∧
    (State.scanInputs { panel with on := false, prev := Lines.low, carry := true, halted := true, ic := 9, mc := 3 }
        { lines := onLine, switches := 0 }).mc = 0 := by decide
/-- V-PAN-21: power-off keeps A and memory. -/
theorem test_pan_powerOff :
    (State.scanInputs { armed 3 [(1, 7)] with a := 5 } { lines := Lines.low, switches := 0 }).on = false ∧
    (State.scanInputs { armed 3 [(1, 7)] with a := 5 } { lines := Lines.low, switches := 0 }).running = false ∧
    (State.scanInputs { armed 3 [(1, 7)] with a := 5 } { lines := Lines.low, switches := 0 }).a = 5 := by decide
/-- V-RST-1. -/
theorem test_reset_line :
    scan { Lines.low with reset := true } { panel with a := 0o1111, b := 0o2222, pc := 0o33, halted := true, carry := true,
                                                       zero := true, ir := 1, mar := 0o44, ic := 7 } =
      { panel with a := 0o1111, b := 0o2222, pc := 0, carry := true, zero := true, ir := 1, mar := 0o44,
                   prev := { onLine with reset := true } } := by decide
/-- V-RST-2: a reset after WRITE keeps the store. -/
theorem test_reset_after_write :
    (scan { Lines.low with reset := true } ((({ stopped 2 [(2, 4), (3, 0o77)] with a := 5, iActive := true } : State)).updates 5)).memRead 0o77
      = 5 := by decide

/-! ### Host -/

/-- E2 and E4. -/
theorem test_host_wraps :
    (panel.putWordAt 64 0o1111).memRead 0 = 0o1111 ∧ (panel.putWordAt (-65) 0o3333).memRead 63 = 0o3333 ∧
    (panel.putWordAt 0 (2 ^ 40 + 5)).memRead 0 = 5 ∧ panel.getWordAt (4096 + 1) = 5 := by decide
/-- V-HOST-1, V-HOST-2 and V-HOST-5: what is parsed; the text of V-HOST-3 by R243's rule, five digits, of which the vector counts
six (log 23). -/
theorem test_host_parse :
    parseText "0002 0005\n0004 0077 0001".toList = [2, 5, 4, 0o77, 1] ∧ parseText "12 34 5".toList = [0o1234] ∧
    parseText "0o0077".toList = [7] ∧ parseText "0128".toList = [] := by decide
/-- V-HOST-4, V-HOST-8 and V-HOST-9. -/
theorem test_host_import_refused :
    panel.importResult "xyz".toList = .noValidData ∧
    ({ panel with on := false } : State).importResult "0001".toList = .notPoweredOn ∧
    (armed 0 []).importResult "0001".toList = .running := by decide
/-- V-HOST-10: the first line of the text and the start of the second. -/
theorem test_host_export :
    exportWords 0 [2, 5, 4, 0o77, 1, 0, 0, 0, 0] = "0002 0005 0004 0077 0001 0000 0000 0000\n0000".toList := by decide
/-- A getWordAt in the inbox is answered by the step and changes nothing else (log 2). -/
theorem test_host_action :
    got (step { panel with inbox := [.getWordAt (-63), .exportRam] }) (fun t => (t.reply, t.inbox, t.pc)) =
      some (some (.word 5), [.exportRam], 0) := by decide
/-- E4 by action, a key word supplied (log 7), and an import with its result kind (R225, R242). -/
theorem test_host_action_effects :
    got (step { panel with inbox := [.putWordAt (-1) (2 ^ 40 + 5)] }) (fun t => (t.mem, t.reply)) =
      some ([(0, 2), (1, 5), (2, 1), (63, 5)], none) ∧
    got (step { panel with inbox := [.supplyKey 0o101] }) (fun t => (t.keyIn, t.mem)) = some (some 0o101, panel.mem) ∧
    got (step { panel with inbox := [.importRam "0007 1234 5".toList] }) (fun t => (t.mem, t.reply)) =
      some ([(0, 7), (1, 0o1234)], some (.imported .ok)) := by decide
/-- R264: construction leaves a machine off with its lines, switches and counters clear, whatever the draws are. -/
theorem test_host_construct :
    got (step { armed 3 [] with sw := 9, ic := 7, carry := true, inbox := [.construct] })
      (fun t => (t.on, t.running, t.carry, t.sw, t.ic, t.prev)) = some (false, false, false, 0, 0, Lines.low) := by decide
/-- Program P3 of 95_test_vectors section 3, with its label, as its words. -/
theorem test_asm_p3 :
    (assemble ".org 0\n LDI 7 ; x\n CALL sub\n STA 0o30\n HLT\n.org 0x10\nsub: RLC\n inc\n RET".toList).toOption =
      some [(0, 0o0002), (1, 7), (2, 0o0045), (3, 0o0020), (4, 0o0004), (5, 0o0030), (6, 0o0001), (16, 0o0030),
        (17, 0o0016), (18, 0o0046)] := by decide
/-- R80: a Format O mnemonic requires its operand, and an unknown name is an error. -/
theorem test_asm_errors :
    (assemble "LDI".toList).toOption = none ∧ (assemble "FOO".toList).toOption = none ∧
    (assemble "RET 5".toList).toOption = none := by decide
/-- R245: what the tick of V-ALU-50 shows as changed. -/
theorem test_observe :
    changedRegs (armed 0 []) { armed 0 [] with a := 0o7777 } = [⟨"A", 0, 0o7777⟩] ∧
    changedAddrs (armed 0 []) (armed 0 [(7, 3)]) = [7] := by decide

/-! ### Witnesses: for each statement with hypotheses, a state and operands that meet them together -/

/-- Words at PC on an armed machine, checked one by one. -/
theorem runsFrom_of {ws : List Word} {s : State} (h : s.on = true ∧ s.running = true ∧ s.mc = 0)
    (hw : ∀ k ∈ List.range ws.length, ws[k]? = some (s.memRead (s.pc + BitVec.ofNat 12 k).toNat)) : RunsFrom ws s := by
  refine ⟨h.1, h.2.1, h.2.2, fun k w hk => ?_⟩
  have hlt : k < ws.length := (List.getElem?_eq_some_iff.mp hk).1
  have := hw k (List.mem_range.mpr hlt)
  rw [hk] at this; exact (Option.some.inj this).symm

/-- IgnoredBitsReachOnlyIr: E1's INC words, and the last index. -/
theorem test_witness_ignored :
    (0o5516 : Word).toNat % 64 = (0o0016 : Word).toNat % 64 ∧ (0o7777 : Word).toNat % 64 = (0o0077 : Word).toNat % 64 := by
  decide
theorem test_witness_ldi : RunsFrom [(0o77#6 ++ 0o02#6 : Word), 0o7777] (armed 0o7777 [(0o77, 0o7702), (0, 0o7777)]) :=
  runsFrom_of (by decide) (by decide)
theorem test_witness_lda : RunsFrom [(0#6 ++ 0o03#6 : Word), 0o0105] (armed 0 [(0, 3), (1, 0o105)]) :=
  runsFrom_of (by decide) (by decide)
theorem test_witness_sta : (armed 2 [(2, 4), (3, 0o77)]).mem.wf = true ∧
    RunsFrom [(0#6 ++ 0o04#6 : Word), 0o0077] (armed 2 [(2, 4), (3, 0o77)]) :=
  ⟨by decide, runsFrom_of (by decide) (by decide)⟩
theorem test_witness_in : RunsFrom [(0#6 ++ 0o05#6 : Word)] (armed 5 [(5, 5)]) := runsFrom_of (by decide) (by decide)
theorem test_witness_key : RunsFrom [(0#6 ++ 0o06#6 : Word)] { armed 6 [(6, 6)] with keyIn := some 0o7777 } ∧
    RunsFrom [(0#6 ++ 0o06#6 : Word)] (armed 6 [(6, 6)]) ∧ (armed 6 [(6, 6)]).keyIn = none :=
  ⟨runsFrom_of (by decide) (by decide), runsFrom_of (by decide) (by decide), rfl⟩
/-- AddSetsSumCarryZero, SubSetsDifferenceCarryZero, CompareSetsFlagsOnly, LogicClearsCarry: the memory forms, at the wrap. -/
theorem test_witness_memAlu : ∀ op ∈ [0o10#6, 0o11#6, 0o12#6, 0o13#6, 0o14#6, 0o15#6],
    RunsFrom [(0#6 ++ op : Word), 0o7777] (armed 0o77 [(0o77, 0#6 ++ op), (0, 0o7777)]) :=
  fun op h => runsFrom_of ⟨rfl, rfl, rfl⟩ (by revert op; decide)
/-- The immediate forms. -/
theorem test_witness_immAlu : ∀ op ∈ [0o20#6, 0o21#6, 0o22#6, 0o23#6, 0o24#6, 0o25#6],
    RunsFrom [(0#6 ++ op : Word), 0] (armed 0 [(0, 0#6 ++ op)]) :=
  fun op h => runsFrom_of ⟨rfl, rfl, rfl⟩ (by revert op; decide)
/-- IncDecStepAccumulator, CircularRotates, RotatesThroughCarry. -/
theorem test_witness_accAlu : ∀ op ∈ [0o16#6, 0o17#6, 0o30#6, 0o31#6, 0o32#6, 0o33#6],
    RunsFrom [(0o77#6 ++ op : Word)] (armed 0o7777 [(0o77, 0o77#6 ++ op)]) :=
  fun op h => runsFrom_of ⟨rfl, rfl, rfl⟩ (by revert op; decide)
theorem test_witness_jmp : RunsFrom [(0#6 ++ 0o40#6 : Word), 0o7776] (armed 0 [(0, 0o40), (1, 0o7776)]) :=
  runsFrom_of (by decide) (by decide)
/-- ConditionalJumps: each condition met and not met, with the words at PC. -/
theorem test_witness_conditional : ∀ c z : Bool, ∀ op ∈ [0o41#6, 0o42#6, 0o43#6, 0o44#6],
    RunsFrom [(0#6 ++ op : Word), 0o20] { armed 0o7776 [(0o76, 0#6 ++ op), (0o77, 0o20)] with carry := c, zero := z } :=
  fun c z op h => runsFrom_of ⟨rfl, rfl, rfl⟩ (by revert op; cases c <;> cases z <;> decide)
theorem test_witness_call : (armed 0o76 [(0o76, 0o45), (0o77, 0o30)]).mem.wf = true ∧
    RunsFrom [(0#6 ++ 0o45#6 : Word), 0o30] (armed 0o76 [(0o76, 0o45), (0o77, 0o30)]) :=
  ⟨by decide, runsFrom_of (by decide) (by decide)⟩
theorem test_witness_ret : RunsFrom [(1#6 ++ 0o46#6 : Word)] (armed 0o22 [(0o22, 0o146), (0o77, 4)]) :=
  runsFrom_of (by decide) (by decide)
/-- RetAfterCallReturns: another state whose slot holds what the CALL left. -/
theorem test_witness_retAfterCall : (armed 2 []).mem.wf = true ∧
    got (exec (.call 0 0o20) (armed 2 [])) (fun t => t.memRead 0o77) =
      some ((armed 0o22 [(0o77, 4)]).memRead 0o77) := by decide
theorem test_witness_hlt : RunsFrom [(0#6 ++ 0o01#6 : Word)] (armed 4 [(4, 1)]) ∧
    (armed 4 [(4, 1)]).mPending = false ∧ (armed 4 [(4, 1)]).iActive = false :=
  ⟨runsFrom_of (by decide) (by decide), rfl, rfl⟩
theorem test_witness_reserved : RunsFrom [(0o77#6 ++ 0o77#6 : Word)] (armed 0o40 [(0o40, 0o7777)]) ∧
    RunsFrom [(0#6 ++ 0#6 : Word)] (armed 0 []) :=
  ⟨runsFrom_of (by decide) (by decide), runsFrom_of (by decide) (by decide)⟩
/-- OnlyNamedInstructionsWrite: NOP is in none of the lists, and a jump is in those of PC alone. -/
theorem test_witness_onlyNamed : (Instr.nop 0).opcode = 0 ∧ (Instr.jmp 0 5).opcode = 0o40 := by decide
/-- MachineCyclesBySequence: FETCH, DECODE, a first and a last micro-op of LDI. -/
theorem test_witness_cycles :
    (armed 0 []).mc = 0 ∧ ({ armed 0 [] with mc := 1 } : State).mc = 1 ∧
    (entry (opcodeOf 2)).microOps[0]? = some .incPc ∧ 0 + 1 < (entry (opcodeOf 2)).microOps.length ∧
    (entry (opcodeOf 2)).microOps[2]? = some .incPc ∧ 2 + 1 = (entry (opcodeOf 2)).microOps.length := by decide
/-- TickContract: off, running, a step requested, one requested while halted, nothing requested. -/
theorem test_witness_tick :
    ({ panel with on := false } : State).on = false ∧ (armed 0 []).running = true ∧
    ({ panel with mPending := true } : State).wantStep = true ∧ panel.halted = false ∧
    ({ panel with iActive := true, halted := true } : State).wantStep = true ∧ panel.wantStep = false ∧
    panel.on = true ∧ panel.running = false := by decide
/-- InstructionIsItsTicks, and StepIsItsTicks: where a step is a tick; in the instruction-level view armed and forced. -/
theorem test_witness_ticks :
    (State.reset.inbox = [] ∧ State.reset.stepUnit = .tick) ∧
    (armed 0 []).stepUnit = .instruction ∧ ((armed 0 []).on = true ∧ (armed 0 []).running = true ∧ (armed 0 []).mc = 0 ∧ (armed 0 []).inbox = []) ∧
    ({ panel with iActive := true } : State).startsInstr = true ∧ panel.running = false ∧ panel.inbox = [] := by decide
/-- InstructionStepFinishesPartlyRun: after FETCH of LDI, and before its last micro-op. -/
theorem test_witness_partlyRun :
    1 + (3 + 1) = cyclesOf (opcodeOf 2) ∧ 4 + (0 + 1) = cyclesOf (opcodeOf 2) ∧ panel.on = true ∧ panel.running = false ∧
    ({ panel with mc := 1, ir := 2, iActive := true } : State).iActive = true ∧ panel.halted = false := by decide
/-- StepRunsDecodedInstruction: LDI 5 at the PC of an armed machine and of one in a forced step, in both views. -/
theorem test_witness_stepRuns :
    (∀ u : StepUnit, u ∈ [.tick, .instruction] →
      ({ panel with iActive := true, stepUnit := u } : State).stepUnit = u ∧
      ({ panel with iActive := true, stepUnit := u } : State).iActive = true ∧ panel.on = true ∧ panel.mc = 0 ∧
      panel.running = false ∧ panel.halted = false ∧ panel.inbox = [] ∧
      ({ armed 0 [(0, 2), (1, 5)] with stepUnit := u } : State).running = true) ∧
    instrOf [panel.memRead 0, panel.memRead 1] = some (.ldi 0 5) ∧
    instrOf [(armed 0 [(0, 2), (1, 5)]).memRead 0, (armed 0 [(0, 2), (1, 5)]).memRead 1] = some (.ldi 0 5) := by decide
/-- StepIsHostActionOrTick: each action; a step that is a tick; mid-instruction, off, stopped, halted. -/
theorem test_witness_actionOrTick :
    (∀ act ∈ [HostAction.scanInputs ⟨onLine, 0⟩, .update, .getWordAt (-1), .putWordAt 64 (-1), .importRam [], .exportRam,
        .supplyKey 0, .construct], ({ panel with inbox := [act] } : State).inbox = [act]) ∧
    (State.reset.inbox = [] ∧ State.reset.stepUnit = .tick) ∧
    ({ armed 0 [] with mc := 1 } : State).mc ≠ 0 ∧ ({ panel with on := false } : State).on = false ∧
    (panel.running = false ∧ panel.iActive = false) ∧
    ({ panel with iActive := true, halted := true } : State).halted = true := by decide
/-- HostWritesWrapAndTruncate and CanonicalMemoriesAgree. -/
theorem test_witness_memory : panel.mem.wf = true ∧ changedAddrs panel { panel with pc := 9 } = [] := by decide
/-- ResetClearsPcAndStatus, MachineStepFiresOncePerEdge, InstructionStepRunsOneInstruction, PanelExaminesAndDeposits (each line alone, and
all in one scan). -/
theorem test_witness_edges :
    panel.on = true ∧ panel.prev = onLine ∧ panel.running = false ∧ panel.halted = false ∧ panel.mc = 0 ∧
    panel.iActive = false := by decide
/-- LinesIgnoredWhileOff and PowerOnDraws; PowerOffStops. -/
theorem test_witness_power :
    ({ panel with on := false, prev := Lines.low } : State).on = false ∧ Lines.low.on = false ∧ panel.prev.on = true := by
  decide
/-- RunLineArmsOnEdge: a low line; an edge, on a machine halted or not, with a reset edge or none; a line held high, with a reset edge
or none. -/
theorem test_witness_run :
    onLine.run = false ∧ panel.prev.run = false ∧ panel.prev.reset = false ∧ (armed 0 []).prev.run = true ∧
    (armed 0 []).prev.reset = false ∧ ({ panel with halted := true } : State).halted = true ∧
    ({ onLine with run := true } : Lines).reset = false ∧ ({ onLine with run := true, reset := true } : Lines).run = true := by
  decide
/-- PanelIgnoredWhileRunning. -/
theorem test_witness_panelIgnored :
    (armed 0 []).on = true ∧ (armed 0 []).prev.on = true ∧ (armed 0 []).running = true ∧ (armed 0 []).prev.run = true ∧
    ({ onLine with run := true, deposit := true } : Lines).run = true := by decide
/-- HaltedEndsOnlyByResetOrPower: by the reset line, by power-on, by a new construction. -/
theorem test_witness_unhalts :
    got (step { panel with halted := true, inbox := [.scanInputs ⟨{ onLine with reset := true }, 0⟩] }) (fun t => t.halted) =
      some false ∧
    got (step { panel with halted := true, prev := Lines.low, inbox := [.scanInputs ⟨onLine, 0⟩] }) (fun t => t.halted) =
      some false ∧
    got (step { panel with halted := true, inbox := [.construct] }) (fun t => t.halted) = some false := by decide
/-- ImportLoadsAndPads: off, running, no data, one word, and one word more than the RAM has. -/
theorem test_witness_import :
    panel.importResult "0001".toList = .ok ∧ panel.importResult [] = .noValidData ∧
    64 < (parseText (List.replicate 260 '1')).length ∧ (parseText (List.replicate 256 '1')).length ≤ 64 := by decide
/-- ParseGroupsOctalDigits: the four digits of the first word of a text. -/
theorem test_witness_parse :
    0 < (parseText ['7', 'x', '0', '1', '2']).length ∧
    ∀ n : Fin 4, (['7', 'x', '0', '1', '2'].filter fun c => decide ('0' ≤ c ∧ c ≤ '7'))[4 * 0 + n.val]? =
      some (['7', '0', '1', '2'][n.val]) := by decide
/-- ImportOfExportRestores. -/
theorem test_witness_export : panel.mem.wf = true ∧ panel.on = true ∧ panel.running = false := by decide
/-- SoundnessIsKept and LineLatchIsKept: a sound state that steps, and whose line latch agrees with its power status. -/
theorem test_witness_sound : (armed 0 []).Sound ∧ (armed 0 []).LatchSound ∧ got (step (armed 0 [])) (fun t => t.pc) = some 1 :=
  ⟨⟨by decide, by decide, by decide, by decide, by decide, by decide⟩, ⟨by decide, by decide⟩, by decide⟩

end Sys2Proof.Tests
end

section
/-! The scope statements (00_scope R3): n steps are n ticks, a step that starts an instruction is the instruction's ticks, and a
pending host action is the step (log 1, log 2). -/

namespace Sys2Proof.Machine

/-! ### The two units of a step -/

/-- Where a step is a tick, n steps are n ticks (R3, R119). -/
theorem run_eq_updates {s : State} (hin : s.inbox = []) (hu : s.stepUnit = .tick) (n : Nat) :
    Sys2Proof.core.run n s = .next (s.updates n) := by
  induction n generalizing s with
  | zero => rfl
  | succ n ih =>
    rw [run_succ_tick hin hu]
    exact ih (by simpa using hin) (by simpa using hu)

/-- On an armed machine at FETCH, `exec` of the instruction at PC is its ticks (R120). -/
theorem exec_instrAt_eq_updates {s : State} (hon : s.on = true) (hrun : s.running = true) (hmc : s.mc = 0) :
    exec (s.instrAt s.pc) s = .next (s.updates (cyclesOf (opcodeOf (s.memRead s.pc.toNat)))) := by
  rw [exec_instrAt, updates_instruction hon hrun hmc]

/-- Under an instruction step at FETCH, the ticks of the instruction at PC leave what its `exec` leaves, with the step consumed
(R118, R120). -/
theorem exec_instrAt_updates_forced {s : State} (hon : s.on = true) (hrun : s.running = false) (hi : s.iActive = true)
    (hh : s.halted = false) (hmc : s.mc = 0) :
    ∃ t, exec (s.instrAt s.pc) s = .next t ∧
      s.updates (cyclesOf (opcodeOf (s.memRead s.pc.toNat))) = { t with mPending := false, iActive := false } :=
  ⟨_, exec_instrAt s, updates_instruction_step hon hrun hi hh hmc⟩

/-- Every instruction ends at FETCH (R114, R115). -/
theorem mc_of_exec_instrAt {s t : State} (ht : exec (s.instrAt s.pc) s = .next t) : t.mc = 0 := by
  rw [exec_instrAt] at ht
  cases ht
  rfl

/-- A step that starts an instruction on an armed machine is `exec` of the instruction at PC. -/
theorem step_eq_exec_of_armed {s : State} (hin : s.inbox = []) (hs : s.startsInstr = true) (hrun : s.running = true) :
    step s = exec (s.instrAt s.pc) s := by
  rw [step_instr hin hs (exec_instrAt s) hrun, exec_instrAt]
  rfl

/-- A forced step that starts an instruction is `exec` of the instruction at PC and the consumption of the step (R118). -/
theorem step_of_forced {s t : State} (hin : s.inbox = []) (hs : s.startsInstr = true) (hrun : s.running = false)
    (ht : exec (s.instrAt s.pc) s = .next t) : step s = .next { t with mPending := false, iActive := false } :=
  (step_instr hin hs ht hrun).trans (congrArg Host.Outcome.next (consumeStep_last (mc_of_exec_instrAt ht)))

/-! ### The instruction at PC by its decoding -/

/-- What two words decode to is the instruction of those two words (R72, R73). -/
theorem eq_decodeWords_of_decode {w0 w1 : Word} {i : Instr} {rest : List Word}
    (h : decode [w0, w1] = .ok (i, rest)) : i = decodeWords w0 w1 := by
  rw [decode] at h
  split at h <;> cases h <;> rfl

/-- The opcode of the instruction at an address is that of the word there (R71, R73). -/
theorem instrAt_opcode (s : State) (p : Word) : (s.instrAt p).opcode = opcodeOf (s.memRead p.toNat) := by
  rw [← opcodeWord_opcode, (instrAt_parts s p).left]

/-! ### Host actions -/

/-- `wrapN` keeps the low twelve bits (R8). -/
theorem wrapN_eq_ofNat (v : Int) : wrapN v = BitVec.ofNat 12 (v % 4096).toNat := by
  apply BitVec.eq_of_toNat_eq
  rw [wrapN, BitVec.toNat_ofInt, BitVec.toNat_ofNat]
  omega

/-- An import changes memory only, and does not depend on the pending actions (R242). -/
theorem importRam_with_inbox (s : State) (rest : List HostAction) (text : List Char) :
    ({ s with inbox := rest } : State).importRam text = { s with inbox := rest, mem := (s.importRam text).mem } := by
  have hres : ({ s with inbox := rest } : State).importResult text = s.importResult text := rfl
  unfold State.importRam
  rw [hres]
  split <;> rfl

/-- No instruction starts mid-instruction, on a machine that is off, or on one neither armed nor in a forced instruction step; nor
where a step is a tick (R117, R120). -/
theorem startsInstr_eq_false {s : State}
    (h : s.stepUnit = .tick ∨ s.mc ≠ 0 ∨ s.on = false ∨ s.running = false ∧ (s.iActive = false ∨ s.halted = true)) :
    s.startsInstr = false := by
  unfold State.startsInstr
  rcases h with hu | hmc | hon | ⟨hrun, hi | hh⟩
  · simp [hu]
  · simp [hmc]
  · simp [hon]
  · simp [hrun, hi]
  · simp [hrun, hh]

/-! ### The obligations -/

/-- Settles O34: by induction on the ticks, and from the micro-ops of the instruction at PC, armed or forced. -/
theorem stepIsItsTicks : Obligations.StepIsItsTicks := by
  intro s hin
  refine ⟨fun hu => run_eq_updates hin hu, fun hu hon hmc hgo => ?_⟩
  cases hrun : s.running with
  | true =>
    exact ⟨(step_eq_exec_of_armed hin (startsInstr_armed hu hon hmc hrun) hrun).trans
      (exec_instrAt_eq_updates hon hrun hmc), nofun⟩
  | false =>
    obtain ⟨hi, hh⟩ := hgo.resolve_left (by simp [hrun])
    obtain ⟨t, ht, hticks⟩ := exec_instrAt_updates_forced hon hrun hi hh hmc
    rw [hticks]
    exact ⟨step_of_forced hin (startsInstr_forced hu hon hmc hi hh) hrun ht, fun _ => ⟨rfl, rfl⟩⟩

/-- Settles O37: the words at PC decode to the instruction at PC, and its ticks are its `exec`. -/
theorem stepRunsDecodedInstruction : Obligations.StepRunsDecodedInstruction := by
  intro s i rest hin hon hmc hdec
  obtain rfl : i = s.instrAt s.pc := eq_decodeWords_of_decode hdec
  rw [instrAt_opcode]
  refine ⟨fun hu => ⟨fun hrun => ?_, fun hrun hi hh => ?_⟩, fun hu => ⟨fun hrun => ?_, fun hrun hi hh => ?_⟩⟩
  · exact step_eq_exec_of_armed hin (startsInstr_armed hu hon hmc hrun) hrun
  · exact ⟨_, exec_instrAt s, step_of_forced hin (startsInstr_forced hu hon hmc hi hh) hrun (exec_instrAt s)⟩
  · exact (run_eq_updates hin hu _).trans (exec_instrAt_eq_updates hon hrun hmc).symm
  · obtain ⟨t, ht, hticks⟩ := exec_instrAt_updates_forced hon hrun hi hh hmc
    exact ⟨t, ht, (run_eq_updates hin hu _).trans (congrArg Host.Outcome.next hticks)⟩

/-- Settles O38: each host action by its effect and reply, and a step that starts no instruction as one tick. -/
theorem stepIsHostActionOrTick : Obligations.StepIsHostActionOrTick := by
  intro s
  refine ⟨fun rest => ⟨fun l h => ?scan, fun h => ?tick, fun a h => ?getWord, fun a v h => ?putWord, fun text h => ?load,
    fun h => ?save, fun w h => ?key, fun h => ?construct⟩, fun hin h => step_tick hin (startsInstr_eq_false h)⟩
  all_goals rw [step_action h]
  case getWord => rw [← wrapR_eq]; rfl
  case putWord => rw [← wrapR_eq, ← wrapN_eq_ofNat]; rfl
  case load => rw [State.perform, State.effectOf, importRam_with_inbox]; rfl
  all_goals rfl

end Sys2Proof.Machine
end

section
/-! What a step can do, said once (log 1), and from it what every step keeps: the parameters (R20), the soundness of the state (R34,
R36, R38, R116) and the line latch (R33, R229, R232). -/

namespace Sys2Proof.Machine

/-! ### What a step can do -/

/-- What a step that starts an instruction needs (R120). -/
theorem startsInstr_eq_true {s : State} (h : s.startsInstr = true) :
    s.on = true ∧ s.mc = 0 ∧ (s.running = true ∨ s.running = false ∧ s.iActive = true ∧ s.halted = false) := by
  simp only [State.startsInstr, Bool.and_eq_true, Bool.or_eq_true, Bool.not_eq_true', decide_eq_true_eq] at h
  obtain ⟨⟨⟨-, hon⟩, hmc⟩, hgo⟩ := h
  cases hrun : s.running
  · exact ⟨hon, hmc, .inr ⟨rfl, by simpa [hrun] using hgo⟩⟩
  · exact ⟨hon, hmc, .inl rfl⟩

/-- A step is the oldest host action, or with none pending some number of ticks (R3, R119, R120). -/
theorem step_cases (s : State) :
    (∃ act rest, s.inbox = act :: rest ∧ step s = .next (({ s with inbox := rest } : State).perform act)) ∨
      ∃ n, step s = .next (s.updates n) := by
  cases hin : s.inbox with
  | cons act rest => exact .inl ⟨act, rest, rfl, step_action hin⟩
  | nil =>
    refine .inr ?_
    cases hs : s.startsInstr with
    | false => exact ⟨1, step_tick hin hs⟩
    | true =>
      obtain ⟨hon, hmc, hrun | ⟨hrun, hi, hh⟩⟩ := startsInstr_eq_true hs
      · exact ⟨_, (step_eq_exec_of_armed hin hs hrun).trans (exec_instrAt_eq_updates hon hrun hmc)⟩
      · obtain ⟨t, ht, hticks⟩ := exec_instrAt_updates_forced hon hrun hi hh hmc
        exact ⟨_, (step_of_forced hin hs hrun ht).trans (congrArg Host.Outcome.next hticks.symm)⟩

/-- Every step has a next state (R220). -/
theorem step_next (s : State) : ∃ t, step s = .next t := by
  obtain ⟨_, _, -, h⟩ | ⟨_, h⟩ := step_cases s
  · exact ⟨_, h⟩
  · exact ⟨_, h⟩

/-- What a host action keeps of its state and every tick keeps, every step keeps. -/
theorem step_keeps {P : State → Prop} {s t : State} (hs : P s)
    (haction : ∀ act rest, P (({ s with inbox := rest } : State).perform act))
    (htick : ∀ u : State, P u → P u.update) (h : step s = .next t) : P t := by
  have hticks : ∀ n (u : State), P u → P (u.updates n) := by
    intro n
    induction n with
    | zero => exact fun _ hu => hu
    | succ n ih => exact fun u hu => ih _ (htick u hu)
  obtain ⟨act, rest, -, hstep⟩ | ⟨n, hstep⟩ := step_cases s
  · obtain rfl := Host.Outcome.next.inj (hstep.symm.trans h)
    exact haction act rest
  · obtain rfl := Host.Outcome.next.inj (hstep.symm.trans h)
    exact hticks n s hs

/-! ### The parameters (R6, R20) -/

/-- An import writes memory alone (R242). -/
theorem importRam_eq (s : State) (text : List Char) : s.importRam text = { s with mem := (s.importRam text).mem } := by
  unfold State.importRam
  split <;> rfl

/-- No host action changes the parameters (log 1, log 8). -/
theorem effectOf_parameters (s : State) (act : HostAction) :
    (s.effectOf act).polarity = s.polarity ∧ (s.effectOf act).stepUnit = s.stepUnit := by
  cases act with
  | scanInputs l => exact ⟨s.scanInputs_polarity l, s.scanInputs_stepUnit l⟩
  | update => exact ⟨update_polarity s, update_stepUnit s⟩
  | importRam text => rw [State.effectOf, importRam_eq]; exact ⟨rfl, rfl⟩
  | getWordAt | putWordAt | exportRam | supplyKey | construct => exact ⟨rfl, rfl⟩

/-- No step changes the parameters. -/
theorem step_keeps_parameters {s t : State} (h : step s = .next t) : t.polarity = s.polarity ∧ t.stepUnit = s.stepUnit :=
  step_keeps (P := fun u => u.polarity = s.polarity ∧ u.stepUnit = s.stepUnit) ⟨rfl, rfl⟩
    (fun act rest => effectOf_parameters { s with inbox := rest } act) (fun u hu => by simpa using hu) h

/-! ### What the micro-ops and the cycles keep (R121) -/

/-- A micro-op keeps the canonical form of memory (R102, R103). -/
theorem apply_mem_wf (m : MicroOp) {s : State} (h : s.mem.wf = true) : (m.apply s).mem.wf = true := by
  cases m with
  | write | writeCall => exact memWrite_mem_wf h _ _
  | inputKey => simpa [MicroOp.apply] using h
  | read x y => cases y <;> exact h
  | incPc | loadPcMar | retPc | jumpIf | alu | inputSw | halt => exact h

/-- A micro-op arms no machine (R31). -/
theorem running_of_apply_running {m : MicroOp} {s : State} (h : (m.apply s).running = true) : s.running = true := by
  by_cases hm : m = .halt
  · subst hm; cases h
  · rwa [apply_running s hm] at h

/-- A micro-op keeps a halted machine stopped (R38, R110). -/
theorem apply_haltedStops (m : MicroOp) {s : State} (h : s.haltedStops) : (m.apply s).haltedStops := by
  by_cases hm : m = .halt
  · subst hm; exact fun _ => rfl
  · simpa [State.haltedStops, apply_running s hm, apply_halted s hm] using h

@[simp] theorem applyMicroOp_ir (s : State) (c : Nat) : (s.applyMicroOp c).ir = s.ir := by
  unfold State.applyMicroOp
  split <;> simp

/-- What a tick can do (R117). -/
theorem update_cases (s : State) :
    s.update = s ∨ s.update = s.cycle ∨ s.update = s.cycle.consumeStep ∨ s.update = s.cancelSteps := by
  unfold State.update
  split_ifs <;> simp

/-- A low run line leaves no machine running (R232). -/
theorem scanRun_running_of_low (s : State) {l : Lines} (h : l.run = false) : (s.scanRun l).running = false := by
  simp [State.scanRun, h]

/-- An import answers OK only to words that fit (R242). -/
theorem length_of_importResult_ok {s : State} {text : List Char} (h : s.importResult text = .ok) :
    (parseText text).length ≤ Config.ramWords := by
  unfold State.importResult at h
  split_ifs at h
  omega

namespace State.Sound

variable {s : State}

/-- A micro-op keeps soundness: it changes neither `on`, the step flags, IR, `mc` nor the label (R121). -/
theorem apply (h : s.Sound) (m : MicroOp) : (m.apply s).Sound where
  memWf := apply_mem_wf m h.memWf
  haltedStops := apply_haltedStops m h.haltedStops
  runCancelsSteps hrun := by simpa using h.runCancelsSteps (running_of_apply_running hrun)
  offIsIdle hoff := by
    obtain ⟨hrun, hm, hi⟩ := h.offIsIdle (by simpa using hoff)
    exact ⟨Bool.eq_false_iff.mpr fun hr => by simp [running_of_apply_running hr] at hrun, by simpa, by simpa⟩
  mcInRange := by simpa [State.mcInRange] using h.mcInRange
  labelNamesCycle := by simpa [State.labelNamesCycle] using h.labelNamesCycle

/-- An advance to a cycle in range, under its own label (R116). -/
theorem goto (h : s.Sound) {n : Nat} (hn : n ≤ (entry (opcodeOf s.ir)).microOps.length + 1) :
    (s.goto n (labelAt s.ir n)).Sound :=
  { h with mcInRange := hn, labelNamesCycle := rfl }

theorem endInstr (h : s.Sound) : s.endInstr.Sound :=
  { h with mcInRange := Nat.zero_le _, labelNamesCycle := rfl }

theorem fetchCycle (h : s.Sound) : s.fetchCycle.Sound :=
  { h with mcInRange := Nat.le_add_left 1 _, labelNamesCycle := rfl }

/-- DECODE advances to a first micro-op, which every entry has (R113, R121). -/
theorem decodeCycle (h : s.Sound) : s.decodeCycle.Sound :=
  h.goto (Nat.succ_le_succ (List.length_pos_iff.mpr (microOps_ne_nil _)))

theorem applyMicroOp (h : s.Sound) (c : Nat) : (s.applyMicroOp c).Sound := by
  unfold State.applyMicroOp
  split
  · exact h.apply _
  · exact h

theorem executeCycle (h : s.Sound) (c : Nat) : (s.executeCycle c).Sound := by
  unfold State.executeCycle
  split
  · next hc =>
    rw [← applyMicroOp_ir s c] at hc ⊢
    exact (h.applyMicroOp c).goto (by omega)
  · exact (h.applyMicroOp c).endInstr

theorem cycle (h : s.Sound) : s.cycle.Sound := by
  unfold State.cycle
  split
  · exact h.fetchCycle
  · exact h.decodeCycle
  · exact h.executeCycle _

/-- The end of a forced cycle only drops step flags (R118). -/
theorem consumeStep (h : s.Sound) : s.consumeStep.Sound :=
  { h with
    runCancelsSteps := fun hrun => ⟨rfl, by simp [(h.runCancelsSteps hrun).2]⟩
    offIsIdle := fun hoff => ⟨(h.offIsIdle hoff).1, rfl, by simp [(h.offIsIdle hoff).2.2]⟩ }

theorem cancelSteps (h : s.Sound) : s.cancelSteps.Sound :=
  { h with
    runCancelsSteps := fun _ => ⟨rfl, rfl⟩
    offIsIdle := fun hoff => ⟨(h.offIsIdle hoff).1, rfl, rfl⟩ }

/-- A tick keeps soundness (R117). -/
theorem update (h : s.Sound) : s.update.Sound := by
  obtain hu | hu | hu | hu := update_cases s <;> rw [hu]
  · exact h
  · exact h.cycle
  · exact h.cycle.consumeStep
  · exact h.cancelSteps

theorem latchSwitches (h : s.Sound) (l : Inputs) : (s.latchSwitches l).Sound := { h with }

theorem latchLines (h : s.Sound) (l : Lines) : (s.latchLines l).Sound := { h with }

theorem memWrite (h : s.Sound) (a : Int) (v : Word) : (s.memWrite a v).Sound :=
  { h with memWf := memWrite_mem_wf h.memWf a v }

/-- Power-on starts a sound machine from any (R263). -/
theorem powerOn (s : State) : s.powerOn.Sound where
  memWf := drawAll_mem_wf s
  haltedStops := nofun
  runCancelsSteps := nofun
  offIsIdle := nofun
  mcInRange := Nat.zero_le _
  labelNamesCycle := rfl

/-- Construction makes a sound machine from any (R264). -/
theorem construct (s : State) : s.construct.Sound where
  memWf := drawAll_mem_wf s
  haltedStops := nofun
  runCancelsSteps := nofun
  offIsIdle _ := ⟨rfl, rfl, rfl⟩
  mcInRange := Nat.zero_le _
  labelNamesCycle := rfl

theorem powerOff (h : s.Sound) : s.powerOff.Sound :=
  { h with haltedStops := fun _ => rfl, runCancelsSteps := nofun, offIsIdle := fun _ => ⟨rfl, rfl, rfl⟩ }

theorem scanPower (h : s.Sound) (l : Lines) : (s.scanPower l).Sound := by
  unfold State.scanPower
  split
  · exact powerOn s
  · split
    · exact h.powerOff
    · exact h

theorem doReset (h : s.Sound) : s.doReset.Sound where
  memWf := h.memWf
  haltedStops := nofun
  runCancelsSteps := nofun
  offIsIdle _ := ⟨rfl, rfl, rfl⟩
  mcInRange := Nat.zero_le _
  labelNamesCycle := rfl

theorem scanReset (h : s.Sound) (l : Lines) : (s.scanReset l).Sound := by
  unfold State.scanReset
  split
  · exact h.doReset
  · exact h

/-- Arming a powered machine that is not halted (R232). -/
theorem arm (h : s.Sound) (hon : s.on = true) (hh : s.halted = false) : s.arm.Sound :=
  { h with
    haltedStops := fun hh' => absurd (hh.symm.trans hh') nofun
    runCancelsSteps := fun _ => ⟨rfl, rfl⟩
    offIsIdle := fun hoff => absurd (hon.symm.trans hoff) nofun }

theorem disarm (h : s.Sound) : ({ s with running := false } : State).Sound :=
  { h with
    haltedStops := fun _ => rfl
    runCancelsSteps := nofun
    offIsIdle := fun hoff => ⟨rfl, (h.offIsIdle hoff).2⟩ }

theorem scanRun (h : s.Sound) (hon : s.on = true) (l : Lines) : (s.scanRun l).Sound := by
  unfold State.scanRun
  split
  · exact h.disarm
  · split
    · next hgo =>
      simp only [Bool.and_eq_true, Bool.not_eq_true'] at hgo
      exact h.arm hon hgo.2
    · exact h

theorem examineAt (h : s.Sound) (v : Word) : (s.examineAt v).Sound where
  memWf := h.memWf
  haltedStops := h.haltedStops
  runCancelsSteps _ := ⟨rfl, rfl⟩
  offIsIdle hoff := ⟨(h.offIsIdle hoff).1, rfl, rfl⟩
  mcInRange := Nat.zero_le _
  labelNamesCycle := rfl

theorem scanExamine (h : s.Sound) (l : Lines) : (s.scanExamine l).Sound := by
  unfold State.scanExamine
  split
  · exact h.examineAt _
  · exact h

theorem scanExamineNext (h : s.Sound) (l : Lines) : (s.scanExamineNext l).Sound := by
  unfold State.scanExamineNext
  split
  · exact h.examineAt _
  · exact h

theorem scanDeposit (h : s.Sound) (l : Lines) : (s.scanDeposit l).Sound := by
  unfold State.scanDeposit
  split
  · exact h.memWrite _ _
  · exact h

theorem setPc (h : s.Sound) (v : Word) : (s.setPc v).Sound := { h with }

theorem scanDepositNext (h : s.Sound) (l : Lines) : (s.scanDepositNext l).Sound := by
  unfold State.scanDepositNext
  split
  · exact (h.setPc _).memWrite _ _
  · exact h

theorem scanPanel (h : s.Sound) (l : Lines) : (s.scanPanel l).Sound := by
  unfold State.scanPanel
  split
  · exact h
  · exact (((h.scanExamine l).scanExamineNext l).scanDeposit l).scanDepositNext l

/-- The step lines request steps only of a machine that is powered and, with `run` low, stopped (R233, R234). -/
theorem scanSteps (h : s.Sound) (hon : s.on = true) {l : Lines} (hrun : l.run = false → s.running = false) :
    (s.scanSteps l).Sound := by
  unfold State.scanSteps
  split
  · exact h
  · next hl =>
    exact { h with
      runCancelsSteps := fun hr => absurd ((hrun (by simpa using hl)).symm.trans hr) nofun
      offIsIdle := fun hoff => absurd (hon.symm.trans hoff) nofun }

theorem scanPowered (h : s.Sound) (hon : s.on = true) (l : Lines) : (s.scanPowered l).Sound :=
  (((h.scanReset l).scanRun (by simpa using hon) l).scanPanel l).scanSteps (by simpa using hon)
    fun hl => by simpa using scanRun_running_of_low _ hl

theorem scanIfOn (h : s.Sound) (l : Lines) : (s.scanIfOn l).Sound := by
  unfold State.scanIfOn
  split
  · next hon => exact h.scanPowered hon l
  · exact h

/-- A scan keeps soundness (R229). -/
theorem scanInputs (h : s.Sound) (l : Inputs) : (s.scanInputs l).Sound :=
  (((h.latchSwitches l).scanPower l.lines).scanIfOn l.lines).latchLines l.lines

/-- An import keeps soundness: the memory it loads fits (R242). -/
theorem importRam (h : s.Sound) (text : List Char) : (s.importRam text).Sound := by
  unfold State.importRam
  split
  · next hok => exact { h with memWf := fill_padded_wf (length_of_importResult_ok hok) }
  · exact h

theorem effectOf (h : s.Sound) (act : HostAction) : (s.effectOf act).Sound := by
  cases act with
  | scanInputs l => exact h.scanInputs l
  | update => exact h.update
  | putWordAt a v => exact h.memWrite a _
  | importRam text => exact h.importRam text
  | getWordAt | exportRam => exact h
  | supplyKey w => exact { h with }
  | construct => exact construct s

theorem perform (h : s.Sound) (act : HostAction) : (s.perform act).Sound := { h.effectOf act with }

end State.Sound

/-- Settles O59: a host action and a tick each keep soundness. -/
theorem soundnessIsKept : Obligations.SoundnessIsKept :=
  fun s _ hs => step_keeps hs (fun act rest => State.Sound.perform (s := { s with inbox := rest }) { hs with } act)
    fun _ hu => hu.update

/-! ### The line latch (R33, R229, R232) -/

@[simp] theorem applyMicroOp_on (s : State) (c : Nat) : (s.applyMicroOp c).on = s.on := by
  unfold State.applyMicroOp
  split <;> simp

@[simp] theorem applyMicroOp_prev (s : State) (c : Nat) : (s.applyMicroOp c).prev = s.prev := by
  unfold State.applyMicroOp
  split <;> simp

@[simp] theorem executeCycle_on (s : State) (c : Nat) : (s.executeCycle c).on = s.on := by
  unfold State.executeCycle
  split <;> simp

@[simp] theorem executeCycle_prev (s : State) (c : Nat) : (s.executeCycle c).prev = s.prev := by
  unfold State.executeCycle
  split <;> simp

@[simp] theorem cycle_on (s : State) : s.cycle.on = s.on := by
  unfold State.cycle
  split <;> simp

@[simp] theorem cycle_prev (s : State) : s.cycle.prev = s.prev := by
  unfold State.cycle
  split <;> simp

@[simp] theorem update_on (s : State) : s.update.on = s.on := by
  obtain h | h | h | h := update_cases s <;> simp [h]

@[simp] theorem update_prev (s : State) : s.update.prev = s.prev := by
  obtain h | h | h | h := update_cases s <;> simp [h]

theorem running_of_executeCycle_running {s : State} {c : Nat} (h : (s.executeCycle c).running = true) :
    s.running = true := by
  have hop : (s.applyMicroOp c).running = true := by
    unfold State.executeCycle at h
    split at h <;> exact h
  unfold State.applyMicroOp at hop
  split at hop
  · exact running_of_apply_running hop
  · exact hop

/-- No machine cycle arms a machine (R31). -/
theorem running_of_cycle_running {s : State} (h : s.cycle.running = true) : s.running = true := by
  unfold State.cycle at h
  split at h
  · exact h
  · exact h
  · exact running_of_executeCycle_running h

/-- No tick arms a machine (R117). -/
theorem running_of_update_running {s : State} (h : s.update.running = true) : s.running = true := by
  obtain hu | hu | hu | hu := update_cases s <;> rw [hu] at h
  · exact h
  · exact running_of_cycle_running h
  · exact running_of_cycle_running h
  · exact h

/-- Where the latch agrees with the power status, the power line's level becomes the power status (R230, R231). -/
theorem scanPower_on {s : State} (h : s.prev.on = s.on) (l : Lines) : (s.scanPower l).on = l.on := by
  unfold State.scanPower rise fall
  rw [h]
  cases hl : l.on <;> cases hon : s.on <;> simp [hon]

/-- A scan of a powered machine leaves it running only with the run line high (R232). -/
theorem run_of_scanPowered_running {s : State} {l : Lines} (h : (s.scanPowered l).running = true) : l.run = true := by
  by_contra hl
  have hlow := scanRun_running_of_low (s.scanReset l) (Bool.eq_false_of_not_eq_true hl)
  simp [State.scanPowered, hlow] at h

namespace State.LatchSound

variable {s : State}

theorem update (h : s.LatchSound) : s.update.LatchSound where
  powerLatched := by simpa using h.powerLatched
  runHeld hrun := by simpa using h.runHeld (running_of_update_running hrun)

theorem construct (s : State) : s.construct.LatchSound where
  powerLatched := rfl
  runHeld := nofun

/-- A scan latches the power line with the power it sets, and a machine it leaves running is powered, its run line high (R229). -/
theorem scanInputs (hs : s.Sound) (h : s.LatchSound) (l : Inputs) : (s.scanInputs l).LatchSound where
  powerLatched := by
    have hon := scanPower_on (s := s.latchSwitches l) h.powerLatched l.lines
    simp [State.scanInputs, hon]
  runHeld hrun := by
    have hp : ((s.latchSwitches l).scanPower l.lines).Sound := (hs.latchSwitches l).scanPower l.lines
    simp only [State.scanInputs, latchLines_running, State.scanIfOn] at hrun
    split at hrun
    · exact run_of_scanPowered_running hrun
    · next hoff => simp [hp.offIsIdle (Bool.eq_false_of_not_eq_true hoff)] at hrun

theorem effectOf (hs : s.Sound) (h : s.LatchSound) (act : HostAction) : (s.effectOf act).LatchSound := by
  cases act with
  | scanInputs l => exact h.scanInputs hs l
  | update => exact h.update
  | importRam text => rw [State.effectOf, importRam_eq]; exact { h with }
  | getWordAt | exportRam => exact h
  | putWordAt | supplyKey => exact { h with }
  | construct => exact construct s

theorem perform (hs : s.Sound) (h : s.LatchSound) (act : HostAction) : (s.perform act).LatchSound :=
  { h.effectOf hs act with }

end State.LatchSound

/-- Settles O60: a host action and a tick each keep the latch of a sound state, and the soundness. -/
theorem lineLatchIsKept : Obligations.LineLatchIsKept :=
  fun s _ hs hl h =>
    (step_keeps (P := fun u => u.Sound ∧ u.LatchSound) ⟨hs, hl⟩
      (fun act rest =>
        have hs' : ({ s with inbox := rest } : State).Sound := { hs with }
        have hl' : ({ s with inbox := rest } : State).LatchSound := { hl with }
        ⟨hs'.perform act, hl'.perform hs' act⟩)
      (fun _ ⟨hu, hlu⟩ => ⟨hu.update, hlu.update⟩) h).2

/-- Settles O39: a step is a host action or ticks, and neither changes the parameters. -/
theorem everyStepGoesOn : Obligations.EveryStepGoesOn := by
  intro s
  obtain ⟨t, ht⟩ := step_next s
  exact ⟨t, ht, step_keeps_parameters ht⟩

/-- Settles O58: the machine is powered, its power line latched high, and stopped at FETCH. -/
theorem resetStateIsSound : Obligations.ResetStateIsSound :=
  ⟨{ memWf := reset_mem_wf
     haltedStops := nofun
     runCancelsSteps := nofun
     offIsIdle := nofun
     mcInRange := Nat.zero_le _
     labelNamesCycle := rfl },
   { powerLatched := rfl
     runHeld := nofun }⟩

end Sys2Proof.Machine
end

section
/-! The label reaches no other field (R36), equal reads are equal memories (log 4, log 11), and State.reset is a construction and two
scans (R40, R264; log 5). -/

open Sys2Proof.Certificates

namespace Sys2Proof.Machine

/-! ### The label (R36, R116) -/

theorem applyMicroOp_goto (s : State) (c n : Nat) (l : Label) :
    (s.goto n l).applyMicroOp c = (s.applyMicroOp c).goto n l := by
  unfold State.applyMicroOp
  rw [State.goto_ir]
  split
  · exact apply_goto _ s n l
  · rfl

/-- EXECUTE sets the cycle counter and the label, and its micro-op reads neither (R114). -/
theorem executeCycle_goto (s : State) (c n : Nat) (l : Label) : (s.goto n l).executeCycle c = s.executeCycle c := by
  unfold State.executeCycle
  rw [applyMicroOp_goto, State.goto_ir]
  split <;> rfl

/-- No machine cycle reads the label. -/
theorem cycle_setLabel (s : State) (l : Label) : ({ s with label := l } : State).cycle = s.cycle := by
  obtain ⟨n, h⟩ : ∃ n, s.mc = n := ⟨_, rfl⟩
  match n, h with
  | 0, h => exact (cycle_fetch (s := { s with label := l }) h).trans (cycle_fetch h).symm
  | 1, h => exact (cycle_decode (s := { s with label := l }) h).trans (cycle_decode h).symm
  | c + 2, h =>
    calc ({ s with label := l } : State).cycle
      _ = ({ s with label := l } : State).executeCycle c := cycle_execute h
      _ = s.executeCycle c := executeCycle_goto s c s.mc l
      _ = s.cycle := (cycle_execute h).symm

/-- Settles O36: a tick that runs a cycle ignores the label, and any other leaves it. -/
theorem labelInfluencesNothing : Obligations.LabelInfluencesNothing := by
  intro s l
  have hwant : ({ s with label := l } : State).wantStep = s.wantStep := rfl
  simp only [State.update, cycle_setLabel, hwant]
  split_ifs <;> rfl

/-! ### The data of memory (log 4, log 11) -/

/-- A memory in canonical form is the list of its reads, filled in. -/
theorem Mem.fill_map_read {n lo : Nat} {m : Mem} (hn : lo + n = Config.ramWords) (h : m.wfFrom lo = true) :
    Mem.fill lo ((List.range' lo n).map m.read) = m := by
  induction n generalizing lo m with
  | zero =>
    cases m with
    | nil => rfl
    | cons p rest =>
      simp only [Mem.wfFrom, Bool.and_eq_true, decide_eq_true_eq] at h
      omega
  | succ n ih =>
    have hn' : lo + 1 + n = Config.ramWords := by omega
    cases m with
    | nil => exact ih (m := []) hn' rfl
    | cons p rest =>
      obtain ⟨j, w⟩ := p
      simp only [Mem.wfFrom, Bool.and_eq_true, decide_eq_true_eq] at h
      obtain ⟨⟨⟨hlo, hj⟩, hw⟩, hrest⟩ := h
      simp only [List.range'_succ, List.map_cons, Mem.fill]
      by_cases hjlo : j = lo
      · subst hjlo
        have hread : ∀ i ∈ List.range' (j + 1) n, Mem.read ((j, w) :: rest) i = Mem.read rest i := fun i hi => by
          have : j ≠ i := by have := List.mem_range'_1.mp hi; omega
          simp [Mem.read, this]
        rw [List.map_congr_left hread, ih hn' hrest]
        simp [Mem.read, hw]
      · have hwf : Mem.wfFrom (lo + 1) ((j, w) :: rest) = true := by
          simp [Mem.wfFrom, hj, hw, hrest]; omega
        rw [if_pos (Mem.read_of_wfFrom_lt hwf (Nat.lt_succ_self lo)), ih hn' hwf]

/-- The RAM's words in order, filled in, are the memory (R244). -/
theorem fill_ramWordList {s : State} (h : s.mem.wf = true) : Mem.fill 0 s.ramWordList = s.mem := by
  rw [State.ramWordList, List.range_eq_range']
  exact Mem.fill_map_read (Nat.zero_add _) h

/-- The signal reports no address exactly when every word reads the same (R245). -/
theorem changedAddrs_eq_nil_iff (s t : State) : changedAddrs s t = [] ↔ s.ramWordList = t.ramWordList := by
  simp [changedAddrs, State.ramWordList, List.filter_eq_nil_iff, List.map_inj_left]

/-- Settles O41: a memory in canonical form is what its words in order fill. -/
theorem canonicalMemoriesAgree : Obligations.CanonicalMemoriesAgree := by
  intro s t hs ht h
  rw [← fill_ramWordList hs, ← fill_ramWordList ht, (changedAddrs_eq_nil_iff s t).mp h]

/-! ### Construction (R40, R264) -/

/-- After a construction every word of memory reads as its draw (R40; log 6). -/
theorem construct_memRead (s : State) (j : Int) :
    s.construct.memRead j = Config.powerDraw s.draws (.mem (wrapR j)) := by
  have h := wrapR_lt j
  rw [State.memRead, State.construct_mem, Mem.read_fill (by simp), List.getD_eq_getElem _ _ (by simpa using h)]
  simp

/-- A constructed machine powered on by a scan (R230, R263). -/
theorem construct_scan_on (s : State) :
    s.construct.scanInputs { lines := onLine, switches := 0 } = { s.construct.powerOn with prev := onLine } := rfl

/-- A machine just powered on, reset by a scan (R235, R260). -/
theorem powerOn_scan_reset (s : State) :
    ({ s.powerOn with prev := onLine } : State).scanInputs { lines := { onLine with reset := true }, switches := 0 } =
      { s.powerOn with pc := 0, sw := 0, prev := { onLine with reset := true } } := rfl

/-- Settles O46: power-on and reset each by one scan. -/
theorem resetStateIsTheBootState : Obligations.ResetStateIsTheBootState := by
  refine fun s => ⟨⟨_, rfl, rfl, (State.Sound.construct s).memWf, construct_memRead s⟩, ?_⟩
  rw [construct_scan_on, powerOn_scan_reset]
  rfl

end Sys2Proof.Machine
end

section
/-! Who alone writes each register, flag and status field, and memory, over all instructions (R22 to R31, R121). -/

namespace Sys2Proof.Machine

/-- How `t` may differ from `s` after instruction `i`, rule by rule. Each field's default proof is that `i` left it as it was, or ended
as every instruction does, so a proof for `i` names exactly what `i` writes. -/
structure WritesOnlyNamed (i : Instr) (s t : State) : Prop where
  engine : t.on = s.on ∧ t.mPending = s.mPending ∧ t.iActive = s.iActive ∧ t.prev = s.prev ∧ t.sw = s.sw := by
    exact ⟨rfl, rfl, rfl, rfl, rfl⟩
  host : t.inbox = s.inbox ∧ t.reply = s.reply ∧ t.polarity = s.polarity ∧ t.stepUnit = s.stepUnit := by
    exact ⟨rfl, rfl, rfl, rfl⟩
  ended : t.ir = i.opcodeWord ∧ t.mc = 0 ∧ t.ic = s.ic + 1 ∧ t.label = .fetch := by exact ⟨rfl, rfl, rfl, rfl⟩
  status : i.opcode ≠ 0o01 → t.halted = s.halted ∧ t.running = s.running := by exact fun _ => ⟨rfl, rfl⟩
  flags : i.opcode ∉ [0o10, 0o11, 0o12, 0o13, 0o14, 0o15, 0o16, 0o17, 0o20, 0o21, 0o22, 0o23, 0o24, 0o25,
      0o30, 0o31, 0o32, 0o33] → t.carry = s.carry ∧ t.zero = s.zero := by exact fun _ => ⟨rfl, rfl⟩
  a : i.opcode ∉ [0o02, 0o03, 0o05, 0o06, 0o10, 0o11, 0o12, 0o13, 0o14, 0o16, 0o17, 0o20, 0o21, 0o22, 0o23, 0o24,
      0o30, 0o31, 0o32, 0o33] → t.a = s.a := by exact fun _ => rfl
  b : i.opcode ∉ [0o10, 0o11, 0o12, 0o13, 0o14, 0o15, 0o20, 0o21, 0o22, 0o23, 0o24, 0o25] → t.b = s.b := by
    exact fun _ => rfl
  mar : i.opcode ∉ [0o03, 0o04, 0o10, 0o11, 0o12, 0o13, 0o14, 0o15, 0o45] → t.mar = s.mar := by exact fun _ => rfl
  mem : i.opcode ∉ [0o04, 0o45] → t.mem = s.mem := by exact fun _ => rfl
  key : i.opcode ≠ 0o06 → t.keyIn = s.keyIn ∧ t.draws = s.draws := by exact fun _ => ⟨rfl, rfl⟩
  pc : i.opcode ∉ [0o40, 0o41, 0o42, 0o43, 0o44, 0o45, 0o46] →
      t.pc.toNat = (s.pc.toNat + (encode i).length) % 2 ^ 12 := by exact fun _ => BitVec.toNat_add s.pc _

/-- An instruction whose opcode a rule names is not held by the rule's frame. -/
theorem of_named {op : BitVec 6} {named : List (BitVec 6)} {P : Prop} (h : named.contains op = true) (hn : op ∉ named) : P :=
  absurd (List.contains_iff_mem.mp h) hn

/-- KEY as one record update (R134). -/
theorem execKey_eq (x : BitVec 6) (s : State) :
    execKey x s = .next { s with
      a := s.inputKey.a, keyIn := none, draws := s.inputKey.draws, ir := x ++ 0o06#6, pc := s.pc + 1, mc := 0,
      ic := s.ic + 1, label := .fetch } := by
  simp only [execKey, State.inputKey, State.fetched]
  cases s.keyIn <;> rfl

/-- Every instruction writes only what a rule names it for. -/
theorem exec_writesOnlyNamed (i : Instr) (s : State) : ∃ t, exec i s = .next t ∧ WritesOnlyNamed i s t := by
  cases i with
  | hlt x => exact ⟨_, rfl, { status := fun h => absurd rfl h }⟩
  | ldi x w | inp x => exact ⟨_, rfl, { a := of_named rfl }⟩
  | lda x w => exact ⟨_, rfl, { a := of_named rfl, mar := of_named rfl }⟩
  | sta x w => exact ⟨_, rfl, { mar := of_named rfl, mem := of_named rfl }⟩
  | key x => exact ⟨_, execKey_eq x s, { a := of_named rfl, key := fun h => absurd rfl h }⟩
  | add x w | sub x w | and x w | or x w | xor x w =>
    exact ⟨_, congrArg Host.Outcome.next (runMemAlu_eq s x _ _ w),
      { flags := of_named rfl, a := of_named rfl, b := of_named rfl, mar := of_named rfl }⟩
  | cmp x w =>
    exact ⟨_, congrArg Host.Outcome.next (runMemAlu_eq s x _ _ w),
      { flags := of_named rfl, b := of_named rfl, mar := of_named rfl }⟩
  | adi x w | sui x w | ani x w | ori x w | xri x w =>
    exact ⟨_, congrArg Host.Outcome.next (runImmAlu_eq s x _ _ w),
      { flags := of_named rfl, a := of_named rfl, b := of_named rfl }⟩
  | cpi x w =>
    exact ⟨_, congrArg Host.Outcome.next (runImmAlu_eq s x _ _ w), { flags := of_named rfl, b := of_named rfl }⟩
  | inc x | dec x | rlc x | rrc x | ral x | rar x =>
    exact ⟨_, congrArg Host.Outcome.next (runAccAlu_eq s x _ _), { flags := of_named rfl, a := of_named rfl }⟩
  | jmp x w | jc x w | jnc x w | jz x w | jnz x w =>
    exact ⟨_, congrArg Host.Outcome.next (runJump_eq s x _ _ w), { pc := of_named rfl }⟩
  | call x w => exact ⟨_, rfl, { mar := of_named rfl, mem := of_named rfl, pc := of_named rfl }⟩
  | ret x => exact ⟨_, rfl, { pc := of_named rfl }⟩
  | _ x => exact ⟨_, congrArg Host.Outcome.next (runSkip_eq s x _), {}⟩

/-- Settles O29: instruction by instruction, from what each one writes. -/
theorem onlyNamedInstructionsWrite : Obligations.OnlyNamedInstructionsWrite := by
  intro i s
  obtain ⟨t, ht, hw⟩ := exec_writesOnlyNamed i s
  obtain ⟨hon, hm, hi, hprev, hsw⟩ := hw.engine
  obtain ⟨hin, hreply, hpol, hunit⟩ := hw.host
  obtain ⟨hir, hmc, hic, hlabel⟩ := hw.ended
  exact ⟨t, ht, hon, hm, hi, hprev, hsw, hin, hreply, hpol, hunit, hir, hmc, hic, hlabel, hw.status, hw.flags, hw.a, hw.b,
    hw.mar, fun h j => by simp only [State.memRead, hw.mem h], hw.key, hw.pc⟩

end Sys2Proof.Machine
end

section
/-! Reads and writes of memory by an integer address (R51 to R53). -/

namespace Sys2Proof.Machine

/-- Two addresses name the same word of RAM exactly when they agree modulo its size (R8, R51). -/
theorem wrapR_eq_wrapR_iff (a b : Int) : wrapR a = wrapR b ↔ a % 64 = b % 64 := by
  rw [wrapR_eq, wrapR_eq]
  omega

/-- A read after a write, at the written word and elsewhere, by integer addresses (R51, R52). -/
theorem memRead_memWrite {s : State} (h : s.mem.wf = true) (a j : Int) (v : Word) :
    (s.memWrite a v).memRead j = if wrapR j = wrapR a then v else s.memRead j :=
  Mem.read_write h (wrapR a) (wrapR j) v

/-- The host reads one word at two addresses that wrap alike (R53). -/
theorem getWordAt_of_emod_eq (s : State) {a b : Int} (h : a % 64 = b % 64) : s.getWordAt a = s.getWordAt b :=
  congrArg s.mem.read ((wrapR_eq_wrapR_iff a b).mpr h)

/-- The host writes one word at two addresses that wrap alike (R53). -/
theorem putWordAt_of_emod_eq (s : State) {a b : Int} (h : a % 64 = b % 64) (v : Int) :
    s.putWordAt a v = s.putWordAt b v := by
  simp only [State.putWordAt, State.memWrite, (wrapR_eq_wrapR_iff a b).mpr h]

/-- What the host reads after it has written (R51 to R53). -/
theorem getWordAt_putWordAt {s : State} (h : s.mem.wf = true) (a v j : Int) :
    (s.putWordAt a v).getWordAt j =
      if j % 64 = a % 64 then BitVec.ofNat 12 (v % 4096).toNat else s.getWordAt j := by
  simp only [State.getWordAt, State.putWordAt, memRead_memWrite h, wrapR_eq_wrapR_iff, wrapN_eq_ofNat]

/-- Settles O40: a host write is one write of memory, and an address counts only modulo the RAM's size. -/
theorem hostWritesWrapAndTruncate : Obligations.HostWritesWrapAndTruncate := by
  intro s a v hwf
  have hwrap : a % 64 = ((a % 64 + 64) % 64) % 64 := by omega
  exact ⟨getWordAt_putWordAt hwf a v, putWordAt_of_emod_eq s hwrap v, getWordAt_of_emod_eq s hwrap, rfl,
    memWrite_mem_wf hwf a (wrapN v)⟩

end Sys2Proof.Machine
end

section
/-! The encoding and the decoder, each the other's inverse (30_encoding R70 to R78), and the instructions that only advance PC (R76,
R210, R212). -/

open Sys2Proof.Certificates

namespace Sys2Proof.Machine

/-! ### Decoding the words of an instruction -/

/-- The fields of an instruction's table row decode to it; only a Format O instruction reads the operand word (R71, R72, R75). -/
theorem decodeFields_row (i : Instr) (w1 : Word) : decodeFields i.ignored i.opcode (i.operand.getD w1) = i := by
  cases i <;> rfl

/-- The opcode word of an instruction decodes to it where the word after is its operand, if it has one. -/
theorem decodeWords_opcodeWord {i : Instr} {w1 : Word} (h : i.operand.getD w1 = w1) : decodeWords i.opcodeWord w1 = i := by
  rw [Instr.opcodeWord, decodeWords_append]
  simpa only [h] using decodeFields_row i w1

/-- Settles O2: the decoder reads an operand word exactly where the encoder wrote one. -/
theorem decodeInvertsEncode : Obligations.DecodeInvertsEncode := by
  intro i rest
  cases hop : i.operand with
  | none =>
    have hdec (w1 : Word) : decodeWords i.opcodeWord w1 = i := decodeWords_opcodeWord (by simp [hop])
    cases rest <;> simp [encode, decode, hop, hdec]
  | some w =>
    have hdec : decodeWords i.opcodeWord w = i := decodeWords_opcodeWord (by simp [hop])
    simp [encode, decode, hop, hdec]

/-- Settles O1: the words are the encodings of the instructions, but for the two streams that end too soon (R70). -/
theorem sampleWordsDecode : Obligations.SampleWordsDecode := by
  have decodes (i : Instr) := decodeInvertsEncode i []
  exact ⟨decodes (.nop 0), decodes (.hlt 0), decodes (.ldi 0 5), decodes (.ldi 0o77 5), decodes (.sta 0 0o77),
    decodes (.add 0 0o40), decodes (.cpi 0 5), decodes (.inc 0o55), decodes (.rar 0), decodes (.call 0 0o20),
    decodes (.ret 1), decodes (.nop07 0), decodes (.nop77 0o77), rfl, rfl⟩

/-! ### Encoding what words decode to -/

/-- The table row of what an opcode decodes to: its own fields, and the next word where the entry has an operand (R71, R72, R78). -/
theorem parts_decodeFields (x op : BitVec 6) (w1 : Word) :
    (decodeFields x op w1).parts = (x, op, if (entry op).operandCount = 1 then some w1 else none) := by
  obtain ⟨n, hn, rfl⟩ : ∃ n < 64, op = BitVec.ofNat 6 n := ⟨op.toNat, op.isLt, by simp⟩
  interval_cases n <;> rfl

/-- What words decode to has the first of them as opcode word. -/
@[simp] theorem opcodeWord_decodeWords (w0 w1 : Word) : (decodeWords w0 w1).opcodeWord = w0 := by
  simp only [Instr.opcodeWord, Instr.ignored, Instr.opcode, decodeWords, parts_decodeFields]
  exact fields_append w0

@[simp] theorem operand_decodeWords (w0 w1 : Word) :
    (decodeWords w0 w1).operand = if (entry (opcodeOf w0)).operandCount = 1 then some w1 else none := by
  rw [Instr.operand, decodeWords, parts_decodeFields]; rfl

/-- Settles O3: from the opcode word and the operand of what the words decode to. -/
theorem encodeInvertsDecode : Obligations.EncodeInvertsDecode := by
  intro w0 w1
  rw [encode, opcodeWord_decodeWords, operand_decodeWords]
  split_ifs <;> rfl

/-! ### The entries of the table -/

/-- Every entry has the labels of its micro-ops (R121). -/
theorem entry_labels (op : BitVec 6) : (entry op).labels = (entry op).microOps.map MicroOp.label := by
  revert op; decide

/-- Every entry has a mnemonic (R75, R76). -/
theorem entry_mnemonic_ne_empty (op : BitVec 6) : (entry op).mnemonic ≠ "" := by revert op; decide

/-- No entry has more than five micro-ops (95_test_vectors E1). -/
theorem microOps_length_le (op : BitVec 6) : (entry op).microOps.length ≤ 5 := by revert op; decide

/-- Every opcode index is one of the table (R74). -/
theorem table_getElem?_opcode (op : BitVec 6) : table[op.toNat]? = some (entry op) := by
  have hlt : op.toNat < table.length := op.isLt
  rw [entry, List.getD_eq_getElem _ _ hlt, List.getElem?_eq_getElem hlt]

/-- Settles O4: the six opcode bits index the 64 entries, each of which has what the statement names. -/
theorem everyWordHasAnEntry : Obligations.EveryWordHasAnEntry := by
  intro w
  rw [← opcodeOf_toNat]
  exact ⟨rfl, table_getElem?_opcode _, entry_mnemonic_ne_empty _, List.length_pos_iff.mpr (microOps_ne_nil _),
    microOps_length_le _, by rw [entry_labels, List.length_map]⟩

/-! ### The ignored field -/

/-- An instruction under another ignored field answers the same state but for IR (R77). -/
theorem exec_decodeFields_of_exec {i : Instr} {s t : State} (ht : exec i s = .next t) (y : BitVec 6) (w1 : Word) :
    exec (decodeFields y i.opcode (i.operand.getD w1)) s = .next { t with ir := y ++ i.opcode } := by
  cases i with
  | key x => rw [← Host.Outcome.next.inj ((execKey_eq x s).symm.trans ht)]; exact execKey_eq y s
  | _ => rw [← Host.Outcome.next.inj ht]; rfl

/-- Settles O5: the two words decode to one instruction but for its ignored field. -/
theorem ignoredBitsReachOnlyIr : Obligations.IgnoredBitsReachOnlyIr := by
  intro w w' w1 s hw
  obtain ⟨t, ht, hwrites⟩ := exec_writesOnlyNamed (decodeWords w w1) s
  have hopcode : (decodeWords w w1).opcode = opcodeOf w' := by
    rw [← opcodeWord_opcode, opcodeWord_decodeWords]
    exact BitVec.eq_of_toNat_eq (by rw [opcodeOf_toNat, opcodeOf_toNat, hw])
  have hoperand : (decodeWords w w1).operand.getD w1 = w1 := by
    rw [operand_decodeWords]
    split_ifs <;> rfl
  have hexec := exec_decodeFields_of_exec ht (w'.extractLsb' 6 6) w1
  rw [hopcode, hoperand, opcodeOf, fields_append] at hexec
  exact ⟨t, ht, by rw [hwrites.ended.1, opcodeWord_decodeWords], hexec⟩

/-! ### What an instruction does, at both levels (R120) -/

/-- Where the words of an instruction stand at PC, it is the instruction at PC (R70, R73). -/
theorem instrAt_of_runsFrom {i : Instr} {s : State} (h : RunsFrom (encode i) s) : s.instrAt s.pc = i := by
  obtain ⟨-, -, -, hwords⟩ := h
  have hopcode : s.memRead s.pc.toNat = i.opcodeWord := by simpa using hwords 0 i.opcodeWord rfl
  have hoperand (w : Word) (hw : i.operand = some w) : s.memRead (s.pc + 1).toNat = w := hwords 1 w (by simp [encode, hw])
  rw [State.instrAt, hopcode]
  apply decodeWords_opcodeWord
  cases hop : i.operand with
  | none => rfl
  | some w => exact (hoperand w hop).symm

/-- What `exec` answers for an instruction, its ticks leave, so it completes with its entry's micro-ops (R114, R115, R120). -/
theorem completes_of_exec {i : Instr} {ws : List Word} {ops : List MicroOp} {s t : State} (ht : exec i s = .next t)
    (hws : encode i = ws) (hops : (entry i.opcode).microOps = ops) : Completes i ws ops s t := by
  subst hws hops
  refine ⟨ht, rfl, rfl, entry_labels _, fun hruns => ?_⟩
  have ⟨hon, hrun, hmc, _⟩ := hruns
  have hticks := exec_instrAt_eq_updates hon hrun hmc
  rw [← instrAt_opcode, instrAt_of_runsFrom hruns, ht] at hticks
  exact (Host.Outcome.next.inj hticks).symm

/-- An instruction that only advances PC completes with its one micro-op (R210, R212). -/
theorem completes_runSkip {i : Instr} {x op : BitVec 6} {s : State} (ht : exec i s = .next (s.runSkip x op))
    (hws : encode i = [x ++ op]) (hops : entry i.opcode = nopEntry) :
    Completes i [x ++ op] [.incPc] s (finished s (x ++ op) (s.pc + 1)) :=
  completes_of_exec ht hws (congrArg Entry.microOps hops)

/-- Settles O28: NOP and each reserved index only advance PC, under the entry of NOP. -/
theorem nopAndReservedAdvancePc : Obligations.NopAndReservedAdvancePc := by
  intro x s p hp
  fin_cases hp <;> exact completes_runSkip rfl rfl rfl

end Sys2Proof.Machine
end

section
/-! The machine cycles (40_sequencer R112 to R115), the one effect of each micro-op (R100 to R110), the tick (R117, R118), and what the
ticks of an instruction step run (R234). -/

open Sys2Proof.Certificates

namespace Sys2Proof.Machine

/-! ### The micro-ops (R100 to R110) -/

/-- Adding one to a word wraps at 2^N (R8, R100). -/
theorem add_one_eq_ofNat (v : Word) : v + 1 = BitVec.ofNat 12 ((v.toNat + 1) % 2 ^ 12) := by
  apply BitVec.eq_of_toNat_eq
  rw [BitVec.toNat_add, BitVec.toNat_ofNat, Nat.mod_mod]
  rfl

/-- A read through a register takes the word at its value modulo the size of RAM (R51, R101). -/
theorem memRead_toNat (s : State) (v : Word) : s.memRead v.toNat = s.mem.read (v.toNat % 64) := by
  rw [State.memRead, wrapR_natCast]

/-- A write through a register changes the word at its value modulo the size of RAM (R52, R102). -/
theorem memWrite_toNat (s : State) (v w : Word) :
    s.memWrite v.toNat w = { s with mem := s.mem.write (v.toNat % 64) w } := by
  rw [State.memWrite, wrapR_natCast]

/-- Settles O31: each micro-op by its definition, addresses and the next PC taken modulo their size. -/
theorem microOpsHaveOneEffect : Obligations.MicroOpsHaveOneEffect := by
  intro s
  rw [← add_one_eq_ofNat]
  refine ⟨rfl, fun x v hv => ?read, memWrite_toNat s s.mar s.a, rfl, rfl, rfl, fun cond => ?jumpIf, rfl, rfl⟩
  case read =>
    subst hv
    cases x <;> rw [← memRead_toNat] <;> exact ⟨rfl, rfl, rfl, rfl⟩
  case jumpIf =>
    rw [← memRead_toNat]
    cases cond <;> rfl

/-! ### The machine cycles (R112 to R115) -/

/-- Settles O30: FETCH, DECODE, and EXECUTE at a micro-op that is not the last and at the last. -/
theorem machineCyclesBySequence : Obligations.MachineCyclesBySequence := by
  refine fun s => ⟨fun h => cycle_fetch h, fun h => cycle_decode h, fun c m h hm => ⟨fun hlt => ?inner, fun hend => ?last⟩⟩
  all_goals rw [cycle_execute h, executeCycle_of hm]
  case inner => rw [if_pos hlt]; rfl
  case last => rw [if_neg hend.not_lt, State.endInstr, apply_ic]

@[simp] theorem applyMicroOp_iActive (s : State) (c : Nat) : (s.applyMicroOp c).iActive = s.iActive := by
  unfold State.applyMicroOp
  split <;> simp

@[simp] theorem executeCycle_iActive (s : State) (c : Nat) : (s.executeCycle c).iActive = s.iActive := by
  unfold State.executeCycle
  split <;> simp

/-- No machine cycle ends an instruction step; only its consumption does (R118). -/
@[simp] theorem cycle_iActive (s : State) : s.cycle.iActive = s.iActive := by
  unfold State.cycle
  split <;> simp

/-- No micro-op ends the halted state (R38, R110). -/
theorem apply_halted_of_halted (m : MicroOp) {s : State} (h : s.halted = true) : (m.apply s).halted = true := by
  by_cases hm : m = .halt
  · subst hm; rfl
  · rw [apply_halted s hm, h]

theorem executeCycle_halted_of_halted {s : State} (h : s.halted = true) (c : Nat) : (s.executeCycle c).halted = true := by
  have hop : (s.applyMicroOp c).halted = true := by
    unfold State.applyMicroOp
    split
    · exact apply_halted_of_halted _ h
    · exact h
  unfold State.executeCycle
  split <;> exact hop

/-- No machine cycle ends the halted state (R38). -/
theorem cycle_halted_of_halted {s : State} (h : s.halted = true) : s.cycle.halted = true := by
  unfold State.cycle
  split
  · exact h
  · exact h
  · exact executeCycle_halted_of_halted h _

/-- A machine cycle after FETCH that is not the instruction's last one goes on to the next, and does not halt (R113, R114). -/
theorem cycle_inner {s : State} (hmc : 1 ≤ s.mc) (hlt : s.mc + 1 < cyclesOf (opcodeOf s.ir)) :
    s.cycle.mc = s.mc + 1 ∧ s.cycle.ir = s.ir ∧ s.cycle.ic = s.ic ∧ s.cycle.halted = s.halted := by
  obtain hd | ⟨c, hc⟩ : s.mc = 1 ∨ ∃ c, s.mc = c + 2 := by
    rcases hmc.eq_or_lt with h | h
    · exact .inl h.symm
    · exact .inr (Nat.exists_eq_add_of_le' h)
  · simp [cycle_decode hd, hd]
  · have hlast : c + 1 < (entry (opcodeOf s.ir)).microOps.length := by unfold cyclesOf at hlt; omega
    have hget := List.getElem?_eq_getElem (Nat.lt_of_succ_lt hlast)
    have hm := halt_only_last (opcodeOf s.ir) _
      (List.getElem_mem (l := (entry (opcodeOf s.ir)).microOps.dropLast) (n := c)
        (by rw [List.length_dropLast]; omega))
    rw [List.getElem_dropLast] at hm
    rw [cycle_execute hc, executeCycle_of hget, if_pos hlast]
    simp [apply_halted s hm, hc]

/-- The last machine cycle of an instruction ends the instruction cycle (R114, R115). -/
theorem cycle_last {s : State} (hend : s.mc + 1 = cyclesOf (opcodeOf s.ir)) : s.cycle.mc = 0 ∧ s.cycle.ic = s.ic + 1 := by
  have hpos := List.length_pos_iff.mpr (microOps_ne_nil (opcodeOf s.ir))
  unfold cyclesOf at hend
  obtain ⟨c, hc⟩ : ∃ c, s.mc = c + 2 := Nat.exists_eq_add_of_le' (by omega)
  have hget := List.getElem?_eq_getElem (l := (entry (opcodeOf s.ir)).microOps) (i := c) (by omega)
  rw [cycle_execute hc, executeCycle_of hget, if_neg (by omega)]
  simp

/-! ### The tick (R117, R118) -/

/-- A step requested on a halted machine runs one cycle and is consumed, or is dropped, as the open parameter says (R117, D12; log 9). -/
theorem update_wantStep_halted {s : State} (hon : s.on = true) (hrun : s.running = false) (hw : s.wantStep = true)
    (hh : s.halted = true) :
    s.update = if Config.stepWhenHalted = true then s.cycle.consumeStep else s.cancelSteps := by
  cases hopen : Config.stepWhenHalted <;> simp [State.update, hon, hrun, hw, hh, hopen]

/-- A cycle on a halted machine ends every pending step (R118). -/
theorem cycle_consumeStep_of_halted {s : State} (hh : s.halted = true) :
    s.cycle.consumeStep = { s.cycle with mPending := false, iActive := false } := by
  simp [State.consumeStep, cycle_halted_of_halted hh]

/-- Settles O32: off, running, a step requested and not halted, one requested while halted, nothing requested. -/
theorem tickContract : Obligations.TickContract := by
  intro s
  have hwant (h : s.mPending = true ∨ s.iActive = true) : s.wantStep = true := by simpa [State.wantStep] using h
  refine ⟨update_off, update_running, fun hon hrun hreq hh => update_forced hon hrun (hwant hreq) hh,
    fun hon hrun hreq hh => ?halted, fun _ hrun hm hi => update_idle hrun (by simp [State.wantStep, hm, hi])⟩
  rw [update_wantStep_halted hon hrun (hwant hreq) hh, cycle_consumeStep_of_halted hh]
  rfl

/-! ### Ticks in succession -/

theorem updates_succ (s : State) (n : Nat) : s.updates (n + 1) = (s.updates n).update := by
  induction n generalizing s with
  | zero => rfl
  | succ n ih => exact ih s.update

/-- A state that a tick leaves as it is stays for ever. -/
theorem updates_of_update_eq {s : State} (h : s.update = s) (n : Nat) : s.updates n = s := by
  induction n with
  | zero => rfl
  | succ n ih => rw [updates_succ, ih, h]

/-- No tick arms a machine (R117). -/
theorem updates_running_of_stopped {s : State} (h : s.running = false) (n : Nat) : (s.updates n).running = false := by
  induction n with
  | zero => exact h
  | succ n ih =>
    rw [updates_succ]
    exact Bool.eq_false_of_not_eq_true fun hr => by simp [running_of_update_running hr] at ih

/-! ### An instruction and its ticks (R120) -/

/-- Settles O33: both are the micro-ops of the table entry in order on the fetched word. -/
theorem instructionIsItsTicks : Obligations.InstructionIsItsTicks :=
  fun _ hon hrun hmc => exec_instrAt_eq_updates hon hrun hmc

/-- A conditional jump completes at the target if its condition holds, else past the operand word (R106). -/
theorem completes_runJump {i : Instr} {x op : BitVec 6} {cond : Cond} {addr : Word} {s : State} {taken : Prop}
    (ht : exec i s = .next (s.runJump x op (cond.holds s) addr)) (hws : encode i = [x ++ op, addr])
    (hops : (entry i.opcode).microOps = [.incPc, .jumpIf cond]) (htaken : taken ↔ cond.holds s = true) :
    (taken → Completes i [x ++ op, addr] [.incPc, .jumpIf cond] s (finished s (x ++ op) addr)) ∧
      (¬ taken → Completes i [x ++ op, addr] [.incPc, .jumpIf cond] s (finished s (x ++ op) (s.pc + 2))) := by
  have hcompletes := completes_of_exec ht hws hops
  rw [runJump_eq] at hcompletes
  refine ⟨fun h => ?_, fun h => ?_⟩
  · rwa [if_pos (htaken.mp h)] at hcompletes
  · rwa [if_neg (mt htaken.mpr h)] at hcompletes

/-- Settles O23: each of the four jumps by whether its condition holds. -/
theorem conditionalJumps : Obligations.ConditionalJumps := by
  intro x addr s p hp
  fin_cases hp <;> exact completes_runJump rfl rfl rfl (by simp [Cond.holds])

/-! ### The ticks of an instruction step (R118, R234) -/

/-- An instruction step is active on a stopped machine, after FETCH of the instruction and with `r` of its cycles to come before the last
one (R32, R34). -/
structure State.PartlyStepped (s : State) (r : Nat) : Prop where
  on : s.on = true
  stopped : s.running = false
  active : s.iActive = true
  notHalted : s.halted = false
  started : 1 ≤ s.mc
  left : s.mc + (r + 1) = cyclesOf (opcodeOf s.ir)

namespace State.PartlyStepped

variable {s : State} {r : Nat}

theorem update_eq (h : s.PartlyStepped r) : s.update = s.cycle.consumeStep :=
  update_iActive h.on h.stopped h.active h.notHalted

theorem cycle_running (h : s.PartlyStepped r) : s.cycle.running = false :=
  Bool.eq_false_of_not_eq_true fun hr => by simpa [h.stopped] using running_of_cycle_running hr

/-- A cycle before the last one leaves the step active and one cycle less to run. -/
theorem update (h : s.PartlyStepped (r + 1)) :
    s.update.PartlyStepped r ∧ s.update.mc = s.mc + 1 ∧ s.update.ic = s.ic := by
  have hleft := h.left
  obtain ⟨hmc, hir, hic, hhalted⟩ := cycle_inner h.started (by omega)
  have hupdate : s.update = { s.cycle with mPending := false, iActive := true } :=
    h.update_eq.trans (consumeStep_inner (by simp [h.active]) (by omega) (hhalted.trans h.notHalted))
  rw [hupdate]
  exact ⟨{ on := (cycle_on s).trans h.on
           stopped := h.cycle_running
           active := rfl
           notHalted := hhalted.trans h.notHalted
           started := by simp [hmc]
           left := by simp only [hmc, hir]; omega }, hmc, hic⟩

/-- The last cycle ends the instruction cycle and the step, and the machine then idles. -/
theorem update_last (h : s.PartlyStepped 0) :
    s.update.iActive = false ∧ s.update.mPending = false ∧ s.update.mc = 0 ∧ s.update.ic = s.ic + 1 ∧
      s.update.update = s.update := by
  obtain ⟨hmc, hic⟩ := cycle_last h.left
  rw [h.update_eq, consumeStep_last hmc]
  exact ⟨rfl, rfl, hmc, hic, update_idle h.cycle_running rfl⟩

/-- The step stays active through `k` of the cycles before the last. -/
theorem updates {k : Nat} (h : s.PartlyStepped (r + k)) :
    (s.updates k).PartlyStepped r ∧ (s.updates k).mc = s.mc + k ∧ (s.updates k).ic = s.ic := by
  induction k generalizing r with
  | zero => exact ⟨h, rfl, rfl⟩
  | succ k ih =>
    obtain ⟨hpart, hmc, hic⟩ := ih (r := r + 1) (by rwa [Nat.add_right_comm])
    obtain ⟨hpart', hmc', hic'⟩ := hpart.update
    rw [updates_succ]
    exact ⟨hpart', by rw [hmc', hmc]; rfl, hic'.trans hic⟩

end State.PartlyStepped

/-- Settles O35: the cycles before the last keep the step active, and the last ends it. -/
theorem instructionStepFinishesPartlyRun : Obligations.InstructionStepFinishesPartlyRun := by
  intro s r hon hrun hi hh hstarted hleft
  have h : s.PartlyStepped r := ⟨hon, hrun, hi, hh, hstarted, hleft⟩
  refine ⟨fun k hk => ?_, ?_⟩
  · obtain ⟨d, rfl⟩ := Nat.exists_eq_add_of_le' hk
    obtain ⟨hpart, hmc, -⟩ := h.updates
    exact ⟨hpart.active, hmc⟩
  · obtain ⟨hpart, -, hic⟩ := State.PartlyStepped.updates (r := 0) (k := r) (by rwa [Nat.zero_add])
    rw [updates_succ, ← hic]
    exact hpart.update_last

/-- On a powered machine whose power line is held high, a scan is the two latches and the lines that count while powered (R229). -/
theorem scanInputs_of_powerHeld {s : State} {l : Inputs} (hon : s.on = true) (hprev : s.prev.on = true)
    (hl : l.lines.on = true) : s.scanInputs l = ((s.latchSwitches l).scanPowered l.lines).latchLines l.lines := by
  have hpower : (s.latchSwitches l).scanPower l.lines = s.latchSwitches l := by
    simp [State.scanPower, rise, fall, hprev, hl]
  rw [State.scanInputs, hpower, State.scanIfOn, if_pos (by exact hon)]

/-- The panel does nothing while its four lines are low (R236 to R239). -/
theorem scanPanel_of_low (s : State) {l : Lines} (hex : l.examine = false) (hexNext : l.examineNext = false)
    (hdep : l.deposit = false) (hdepNext : l.depositNext = false) : s.scanPanel l = s := by
  simp [State.scanPanel, State.scanExamine, State.scanExamineNext, State.scanDeposit, State.scanDepositNext, rise,
    hex, hexNext, hdep, hdepNext]

/-- A scan with a rising instruction-step line alone on a powered machine stops it and starts an instruction step (R232, R234). -/
theorem scanInputs_iStep {s : State} (hon : s.on = true) (hprev : s.prev.on = true) (hstep : s.prev.iStep = false) (sw : Nat) :
    s.scanInputs { lines := { onLine with iStep := true }, switches := sw } =
      { s with running := false, iActive := true, sw := wrapN sw, prev := { onLine with iStep := true } } := by
  rw [scanInputs_of_powerHeld hon hprev rfl, State.scanPowered, scanPanel_of_low _ rfl rfl rfl rfl]
  simp [State.scanReset, State.scanRun, State.scanSteps, State.latchSwitches, State.latchLines, rise, onLine, Lines.low, hstep]

/-- Settles O49: the scan starts an instruction step, whose ticks are the instruction's `exec`, and nothing is requested after it. -/
theorem instructionStepRunsOneInstruction : Obligations.InstructionStepRunsOneInstruction := by
  intro s sw hon hprev hstep hh hmc
  obtain ⟨s1, hs1⟩ : ∃ s1, s1 = s.scanInputs { lines := { onLine with iStep := true }, switches := sw } := ⟨_, rfl⟩
  have hscan := hs1.trans (scanInputs_iStep hon hprev hstep sw)
  have hrun : s1.running = false := by rw [hscan]
  obtain ⟨t, hexec, hticks⟩ := exec_instrAt_updates_forced (s := s1) (by rw [hscan]; exact hon) hrun (by rw [hscan])
    (by rw [hscan]; exact hh) (by rw [hscan]; exact hmc)
  have hidle := updates_running_of_stopped hrun (cyclesOf (opcodeOf (s1.memRead s1.pc.toNat)))
  rw [hticks] at hidle
  exact ⟨s1, t, hs1, hexec, hticks, updates_of_update_eq (update_idle hidle rfl)⟩

end Sys2Proof.Machine
end

section
/-! The data-movement instructions (41_data_movement R130 to R134): each one's `exec` as the record update its rule gives, which its
ticks then leave too. -/

open Sys2Proof.Certificates

namespace Sys2Proof.Machine

/-- Settles O6: `exec` writes the immediate into A. -/
theorem ldiLoadsImmediate : Obligations.LdiLoadsImmediate :=
  fun _ _ _ => completes_of_exec rfl rfl rfl

/-- Settles O7: the word that `exec` reads stands at the address modulo the size of RAM. -/
theorem ldaLoadsMemoryWord : Obligations.LdaLoadsMemoryWord := by
  intro x addr s
  rw [← memRead_toNat]
  exact completes_of_exec rfl rfl rfl

/-- Settles O8: `exec` writes memory once, and a read after a write differs only at the written word. -/
theorem staStoresAccumulator : Obligations.StaStoresAccumulator :=
  fun _ addr s hwf => ⟨_, completes_of_exec rfl rfl rfl, rfl, fun j => memRead_memWrite hwf addr.toNat j s.a⟩

/-- Settles O9: `exec` writes the latched switch word into A. -/
theorem inReadsLatchedSwitches : Obligations.InReadsLatchedSwitches :=
  fun _ _ => completes_of_exec rfl rfl rfl

/-- INPUT_KEY takes the word the host supplied (R109, R241). -/
theorem inputKey_of_supplied {s : State} {w : Word} (h : s.keyIn = some w) : s.inputKey = { s with a := w, keyIn := none } := by
  rw [State.inputKey, h]

/-- INPUT_KEY takes a fresh draw where the host supplied no word (R109, R241). -/
theorem inputKey_of_not_supplied {s : State} (h : s.keyIn = none) :
    s.inputKey = { s with a := Config.keyDraw s.draws, draws := s.draws + 1 } := by
  rw [State.inputKey, h]

/-- Settles O10: by whether the host supplied a word. -/
theorem keyReadsSuppliedWordOrDraw : Obligations.KeyReadsSuppliedWordOrDraw := by
  intro x s
  have hexec : exec (.key x) s = .next ((s.fetched x 0o06).inputKey.setPc (s.pc + 1)).endInstr := rfl
  refine ⟨fun w hsupplied => ?_, fun hnone => ?_⟩
  · rw [inputKey_of_supplied (s := s.fetched x 0o06) hsupplied] at hexec
    exact completes_of_exec hexec rfl rfl
  · rw [inputKey_of_not_supplied (s := s.fetched x 0o06) hnone] at hexec
    exact completes_of_exec hexec rfl rfl

end Sys2Proof.Machine
end

section
/-! The ALU functions as whole results (42_alu R150 to R154, R178), the rotations as moves of bits (R153), and the ALU instructions'
`exec` from them (R155 to R172). -/

open Sys2Proof.Certificates

namespace Sys2Proof.Machine

/-! ### Rotations of a word of any width -/

/-- Rotations left add up. -/
theorem rotateLeft_rotateLeft {w : Nat} (v : BitVec w) (m n : Nat) : (v.rotateLeft m).rotateLeft n = v.rotateLeft (m + n) := by
  apply BitVec.eq_of_getMsbD_eq
  intro i hi
  simp only [BitVec.getMsbD_rotateLeft, hi, decide_true, Bool.true_and, Nat.mod_lt _ (Nat.zero_lt_of_lt hi)]
  rw [Nat.add_mod_mod, Nat.add_assoc]

/-- A rotation left by a multiple of the width moves no bit. -/
theorem rotateLeft_of_mod_eq_zero {w n : Nat} (v : BitVec w) (h : n % w = 0) : v.rotateLeft n = v := by
  simp [BitVec.rotateLeft_def, h, BitVec.ushiftRight_eq_zero le_rfl]

/-- As many rotations left as the word has bits restore it. -/
theorem iterate_rotateLeft_width {w : Nat} (r : Nat) (v : BitVec w) : (fun u : BitVec w => u.rotateLeft r)^[w] v = v := by
  have hsum (k : Nat) : (fun u : BitVec w => u.rotateLeft r)^[k] v = v.rotateLeft (r * k) := by
    induction k with
    | zero => exact (rotateLeft_of_mod_eq_zero v (Nat.zero_mod w)).symm
    | succ k ih => rw [Function.iterate_succ_apply', ih, rotateLeft_rotateLeft, Nat.mul_succ]
  rw [hsum, rotateLeft_of_mod_eq_zero v (Nat.mul_mod_left r w)]

/-- A rotation right is the rotation left by the rest of the width. -/
theorem rotateRight_eq_rotateLeft {w r : Nat} (hpos : 0 < r) (hlt : r < w) (v : BitVec w) :
    v.rotateRight r = v.rotateLeft (w - r) := by
  rw [BitVec.rotateRight_def, BitVec.rotateLeft_def, Nat.mod_eq_of_lt hlt,
    Nat.mod_eq_of_lt (Nat.sub_lt (hpos.trans hlt) hpos), Nat.sub_sub_self hlt.le, BitVec.or_comm]

/-- Only zero rotates to zero. -/
theorem rotateLeft_eq_zero_iff {w : Nat} (v : BitVec w) (r : Nat) : v.rotateLeft r = 0 ↔ v = 0 := by
  have hzero : (0 : BitVec w).rotateLeft r = 0 := by simp [BitVec.rotateLeft_def]
  refine ⟨fun h => ?_, fun h => by rw [h, hzero]⟩
  cases w with
  | zero => exact Subsingleton.elim _ _
  | succ k =>
    have hback : (fun u : BitVec (k + 1) => u.rotateLeft r)^[k] (v.rotateLeft r) = v := iterate_rotateLeft_width r v
    rw [← hback, h]
    exact Function.iterate_fixed hzero k

/-! ### What the ALU answers (R150 to R154, R178) -/

/-- The carry of the subtract family compares the operands by the polarity (R151, R178). -/
theorem subCarry_eq_compareCarry (pol : Polarity) (a b : Word) : subCarry pol (subExact a b) = compareCarry pol a b := by
  rw [subCarry_subExact]
  cases pol <;> rfl

theorem aluAdd_eq (a b : Word) : aluAdd a b = ⟨a + b, decide (2 ^ 12 ≤ a.toNat + b.toNat), decide (a + b = 0)⟩ := by
  rw [aluAdd, ofNat_add_toNat]
  rfl

theorem aluSub_eq (pol : Polarity) (a b : Word) : aluSub pol a b = ⟨a - b, compareCarry pol a b, decide (a = b)⟩ := by
  rw [← aluSub_a pol, ← aluSub_zero pol, ← subCarry_eq_compareCarry]
  rfl

theorem aluCmp_eq (pol : Polarity) (a b : Word) : aluCmp pol a b = ⟨a, compareCarry pol a b, decide (a = b)⟩ := by
  rw [aluCmp, aluSub_eq]

/-- Adding one carries exactly at the largest word (R154). -/
theorem aluAdd_one_eq (a : Word) : aluAdd a 1 = ⟨a + 1, decide (a.toNat = 2 ^ 12 - 1), decide (a + 1 = 0)⟩ := by
  have hcarry : 2 ^ 12 ≤ a.toNat + (1 : Word).toNat ↔ a.toNat = 2 ^ 12 - 1 := by
    have ha := a.isLt
    simp only [BitVec.reduceToNat]
    omega
  rw [aluAdd_eq, decide_eq_decide.mpr hcarry]

theorem aluRlc_eq (a : Word) : aluRlc a = ⟨a.rotateLeft 1, a.msb, decide (a = 0)⟩ := by
  have hzero : decide (a.rotateLeft 1 = 0) = decide (a = 0) := decide_eq_decide.mpr (rotateLeft_eq_zero_iff a 1)
  rw [← hzero, ← aluRlc_a]
  rfl

theorem aluRrc_eq (a : Word) : aluRrc a = ⟨a.rotateRight 1, a.getLsbD 0, decide (a = 0)⟩ := by
  have hzero : decide (a.rotateRight 1 = 0) = decide (a = 0) := by
    rw [rotateRight_eq_rotateLeft (by decide) (by decide)]
    exact decide_eq_decide.mpr (rotateLeft_eq_zero_iff a 11)
  rw [← hzero, ← aluRrc_a]
  rfl

/-- Every ALU function but compare sets zero from the A it writes (R29, R178). -/
theorem aluOut_zero {f : AluFn} (hf : f ≠ .cmp) (pol : Polarity) (a b : Word) (c : Bool) :
    (aluOut pol f a b c).zero = decide ((aluOut pol f a b c).a = 0) := by
  cases f with
  | cmp => exact absurd rfl hf
  | _ => exact aluResult_zero _ _

/-- Settles O18: each clause from the whole result of its functions. -/
theorem aluFlagsByFamily : Obligations.AluFlagsByFamily := by
  intro pol a b c
  refine ⟨fun f hf => aluOut_zero hf pol a b c, congrArg AluOut.zero (aluCmp_eq pol a b), rfl, rfl, rfl,
    congrArg AluOut.carry (aluSub_eq pol a b), congrArg AluOut.carry (aluCmp_eq pol a b),
    congrArg AluOut.carry (aluSub_eq pol a 1), fun f hf => ?_, fun f hf => ?_, fun f hf => ?_⟩
  all_goals fin_cases hf <;> rfl

/-! ### The rotations through carry (R153, R171, R172) -/

/-- The thirteen bits that the rotations through carry move: carry above A (R153). -/
def carryAndA (p : Word × Bool) : BitVec 13 := BitVec.ofBool p.2 ++ p.1

/-- What an ALU function makes of A and carry where B holds `b`. -/
def aluStep (pol : Polarity) (f : AluFn) (b : Word) (p : Word × Bool) : Word × Bool :=
  ((aluOut pol f p.1 b p.2).a, (aluOut pol f p.1 b p.2).carry)

theorem getLsbD_carryAndA (p : Word × Bool) (i : Nat) :
    (carryAndA p).getLsbD i = if i < 12 then p.1.getLsbD i else decide (i = 12) && p.2 := by
  rw [carryAndA, BitVec.getLsbD_append, BitVec.getLsbD_ofBool]
  split_ifs with h
  · rfl
  · rw [decide_eq_decide.mpr (show i - 12 = 0 ↔ i = 12 by omega)]

theorem carryAndA_injective : Function.Injective carryAndA := by
  intro p q h
  have hbit (i : Nat) := congrArg (fun v => v.getLsbD i) h
  simp only [getLsbD_carryAndA] at hbit
  refine Prod.ext (BitVec.eq_of_getLsbD_eq fun i hi => ?_) (by simpa using hbit 12)
  simpa [hi] using hbit i

theorem getLsbD_carryLow (c : Bool) (i : Nat) : (carryLow c).getLsbD i = (decide (i = 0) && c) := by
  cases c <;> simp [carryLow]

theorem getLsbD_carryHigh (c : Bool) (i : Nat) : (carryHigh c).getLsbD i = (decide (i = 11) && c) := by
  cases c with
  | false => simp [carryHigh]
  | true => exact (BitVec.getLsbD_twoPow (i := 11) i).trans (by simp [eq_comm])

/-- RAL moves each of the thirteen bits one place up, and carry to the bottom (R153, R171). -/
theorem carryAndA_ral (pol : Polarity) (b : Word) (p : Word × Bool) :
    carryAndA (aluStep pol .ral b p) = (carryAndA p).rotateLeft 1 := by
  apply BitVec.eq_of_getLsbD_eq
  intro i hi
  have hstep : aluStep pol .ral b p = ((p.1 <<< 1) ||| carryLow p.2, p.1.getLsbD 11) := rfl
  simp only [hstep, BitVec.getLsbD_rotateLeft, getLsbD_carryAndA, BitVec.getLsbD_or, BitVec.getLsbD_shiftLeft,
    getLsbD_carryLow]
  obtain rfl | rfl | ⟨hpos, hlt⟩ : i = 0 ∨ i = 12 ∨ (0 < i ∧ i < 12) := by omega
  case inl => simp
  case inr.inl => simp
  case inr.inr => simp [hi, hlt, hpos.ne', show i - 1 < 12 by omega]

/-- RAR moves each of the thirteen bits one place down, and the lowest to carry (R153, R172). -/
theorem carryAndA_rar (pol : Polarity) (b : Word) (p : Word × Bool) :
    carryAndA (aluStep pol .rar b p) = (carryAndA p).rotateRight 1 := by
  apply BitVec.eq_of_getLsbD_eq
  intro i hi
  have hstep : aluStep pol .rar b p = ((p.1 >>> 1) ||| carryHigh p.2, p.1.getLsbD 0) := rfl
  simp only [hstep, BitVec.getLsbD_rotateRight, getLsbD_carryAndA, BitVec.getLsbD_or, BitVec.getLsbD_ushiftRight,
    getLsbD_carryHigh]
  obtain rfl | rfl | hlt : i = 12 ∨ i = 11 ∨ i < 11 := by omega
  case inl => simp
  case inr.inl => simp
  case inr.inr => simp [hlt.ne, show i < 12 by omega, show 1 + i < 12 by omega]

/-- A function that rotates carry and A as thirteen bits restores them after thirteen times (R153). -/
theorem iterate_thirteen_of_rotates {g : Word × Bool → Word × Bool} {r : Nat}
    (h : ∀ p, carryAndA (g p) = (carryAndA p).rotateLeft r) (p : Word × Bool) : g^[13] p = p := by
  have hsemi : Function.Semiconj carryAndA g (fun v => v.rotateLeft r) := h
  apply carryAndA_injective
  calc carryAndA (g^[13] p)
    _ = (fun v : BitVec 13 => v.rotateLeft r)^[13] (carryAndA p) := hsemi.iterate_right 13 p
    _ = carryAndA p := iterate_rotateLeft_width r (carryAndA p)

/-- Settles O20: each rotates the thirteen bits of carry and A. -/
theorem thirteenRotatesRestore : Obligations.ThirteenRotatesRestore := fun pol b p =>
  ⟨iterate_thirteen_of_rotates (carryAndA_ral pol b) p,
    iterate_thirteen_of_rotates (fun q => (carryAndA_rar pol b q).trans (rotateRight_eq_rotateLeft (by decide) (by decide) _)) p⟩

/-! ### The ALU instructions (R155 to R172) -/

section
variable {i : Instr} {x op : BitVec 6} {f : AluFn} {v a' : Word} {carry zero : Bool} {s : State}

/-- A memory-operand ALU instruction completes with what the ALU answers for A and the word at the address (42_alu section 2). -/
theorem completes_runMemAlu (ht : exec i s = .next (s.runMemAlu x op f v)) (hws : encode i = [x ++ op, v])
    (hops : (entry i.opcode).microOps = memAluOps f)
    (hout : aluOut s.polarity f s.a (s.memRead v.toNat) s.carry = ⟨a', carry, zero⟩) :
    Completes i [x ++ op, v] (memAluOps f) s
      (finished { s with mar := v, b := s.memRead v.toNat, a := a', carry := carry, zero := zero } (x ++ op) (s.pc + 2)) := by
  rw [runMemAlu_eq, hout] at ht
  exact completes_of_exec ht hws hops

/-- An immediate ALU instruction completes with what the ALU answers for A and the operand (42_alu section 3). -/
theorem completes_runImmAlu (ht : exec i s = .next (s.runImmAlu x op f v)) (hws : encode i = [x ++ op, v])
    (hops : (entry i.opcode).microOps = immAluOps f) (hout : aluOut s.polarity f s.a v s.carry = ⟨a', carry, zero⟩) :
    Completes i [x ++ op, v] (immAluOps f) s
      (finished { s with b := v, a := a', carry := carry, zero := zero } (x ++ op) (s.pc + 2)) := by
  rw [runImmAlu_eq, hout] at ht
  exact completes_of_exec ht hws hops

/-- An ALU instruction on A alone completes with what the ALU answers for A and carry (42_alu sections 4 and 5). -/
theorem completes_runAccAlu (ht : exec i s = .next (s.runAccAlu x op f)) (hws : encode i = [x ++ op])
    (hops : (entry i.opcode).microOps = [.alu f, .incPc])
    (hout : aluOut s.polarity f s.a s.b s.carry = ⟨a', carry, zero⟩) :
    Completes i [x ++ op] [.alu f, .incPc] s
      (finished { s with a := a', carry := carry, zero := zero } (x ++ op) (s.pc + 1)) := by
  rw [runAccAlu_eq, hout] at ht
  exact completes_of_exec ht hws hops

end

/-- Settles O11: the ALU's sum of A and the operand. -/
theorem addSetsSumCarryZero : Obligations.AddSetsSumCarryZero := fun _ _ _ =>
  ⟨completes_runMemAlu rfl rfl rfl (aluAdd_eq _ _), completes_runImmAlu rfl rfl rfl (aluAdd_eq _ _)⟩

/-- Settles O12: the ALU's difference of A and the operand. -/
theorem subSetsDifferenceCarryZero : Obligations.SubSetsDifferenceCarryZero := fun _ _ _ =>
  ⟨completes_runMemAlu rfl rfl rfl (aluSub_eq _ _ _), completes_runImmAlu rfl rfl rfl (aluSub_eq _ _ _)⟩

/-- Settles O13: the ALU's comparison of A and the operand. -/
theorem compareSetsFlagsOnly : Obligations.CompareSetsFlagsOnly := fun _ _ _ =>
  ⟨completes_runMemAlu rfl rfl rfl (aluCmp_eq _ _ _), completes_runImmAlu rfl rfl rfl (aluCmp_eq _ _ _)⟩

/-- Settles O14: the ALU's logical results, whose carry is false by definition. -/
theorem logicClearsCarry : Obligations.LogicClearsCarry := by
  refine fun x v s => ⟨fun p hp => ?mem, fun p hp => ?imm⟩
  case mem => fin_cases hp <;> exact completes_runMemAlu rfl rfl rfl rfl
  case imm => fin_cases hp <;> exact completes_runImmAlu rfl rfl rfl rfl

/-- Settles O15: the ALU's sum and difference of A and 1. -/
theorem incDecStepAccumulator : Obligations.IncDecStepAccumulator := fun _ _ =>
  ⟨completes_runAccAlu rfl rfl rfl (aluAdd_one_eq _), completes_runAccAlu rfl rfl rfl (aluSub_eq _ _ 1)⟩

/-- Settles O16: a rotation is zero only where A was. -/
theorem circularRotates : Obligations.CircularRotates := fun _ _ =>
  ⟨completes_runAccAlu rfl rfl rfl (aluRlc_eq _), completes_runAccAlu rfl rfl rfl (aluRrc_eq _)⟩

/-- Settles O17: the ALU's rotations of the thirteen bits of carry and A. -/
theorem rotatesThroughCarry : Obligations.RotatesThroughCarry := fun _ s =>
  ⟨⟨_, _, completes_runAccAlu rfl rfl rfl rfl, carryAndA_ral s.polarity s.b (s.a, s.carry)⟩,
    ⟨_, _, completes_runAccAlu rfl rfl rfl rfl, carryAndA_rar s.polarity s.b (s.a, s.carry)⟩⟩

/-! ### Instructions in succession -/

/-- Subtraction undoes addition modulo 2^N (R177). -/
theorem aluSub_aluAdd (pol : Polarity) (a b : Word) : (aluSub pol (aluAdd a b).a b).a = a := by
  rw [aluSub_a, aluAdd_a, BitVec.add_sub_cancel]

/-- Settles O19: each pair runs the ALU's addition, then its subtraction of the same word. -/
theorem subAfterAddRestores : Obligations.SubAfterAddRestores :=
  ⟨fun pol a b _ _ => aluSub_aluAdd pol a b, fun _ _ v s => ⟨_, _, rfl, rfl, aluSub_aluAdd s.polarity s.a (s.memRead v.toNat)⟩,
    fun _ _ v s => ⟨_, _, rfl, rfl, aluSub_aluAdd s.polarity s.a v⟩⟩

/-- JC and JNC, two words before `pc`, go to the target or to `pc` by the carry (R191, R192). -/
theorem jumpsOnCarry_pc {t : State} {carry : Bool} {pc : Word} (hcarry : t.carry = carry) (hpc : t.pc + 2 = pc)
    (y : BitVec 6) (target : Word) :
    (∃ u, exec (.jc y target) t = .next u ∧ u.pc = if carry then target else pc) ∧
      (∃ u, exec (.jnc y target) t = .next u ∧ u.pc = if carry then pc else target) := by
  subst hcarry hpc
  refine ⟨⟨_, rfl, rfl⟩, ⟨_, rfl, ?_⟩⟩
  rw [runJump_eq]
  cases h : t.carry <;> simp [Cond.holds, h]

/-- Settles O21: the carry that the compare leaves is the one the jump tests. -/
theorem compareThenJumpOnCarry : Obligations.CompareThenJumpOnCarry := by
  intro x y v target s p hp
  obtain ⟨⟨hcmp, -⟩, ⟨hcpi, -⟩⟩ := compareSetsFlagsOnly x v s
  have hpc : s.pc + 2 + 2 = s.pc + 4 := BitVec.add_assoc s.pc 2 2
  fin_cases hp
  · exact ⟨_, hcmp, jumpsOnCarry_pc rfl hpc y target⟩
  · exact ⟨_, hcpi, jumpsOnCarry_pc rfl hpc y target⟩

end Sys2Proof.Machine
end

section
/-! The unconditional control transfers (43_control R190, R195 to R197): JMP, CALL and RET, each by `exec` and so by its ticks, and
the return through the slot that a CALL wrote. -/

open Sys2Proof.Certificates

namespace Sys2Proof.Machine

/-- Settles O22: JMP is a jump that is always taken. -/
theorem jmpLoadsPc : Obligations.JmpLoadsPc :=
  fun _ _ _ => completes_of_exec rfl rfl rfl

/-- Settles O24: `exec` writes memory once, in the slot, and a read after a write differs only at the written word. -/
theorem callSavesReturnAddress : Obligations.CallSavesReturnAddress :=
  fun _ _ s hwf => ⟨_, completes_of_exec rfl rfl rfl, rfl, fun j => memRead_memWrite hwf Config.callAddr j (s.pc + 2)⟩

/-- Settles O25: `exec` reads the slot into PC. -/
theorem retLoadsPcFromSlot : Obligations.RetLoadsPcFromSlot :=
  fun _ _ => completes_of_exec rfl rfl rfl

/-- Settles O26: the CALL leaves the return address in the slot, and the RET loads PC from there. -/
theorem retAfterCallReturns : Obligations.RetAfterCallReturns := by
  intro x y addr s hwf
  obtain ⟨t, ⟨hcall, -⟩, ht, hreads⟩ := callSavesReturnAddress x addr s hwf
  have hslot : t.memRead 0o77 = s.pc + 2 := hreads 0o77
  obtain ⟨ha, hcarry, hzero⟩ : t.a = s.a ∧ t.carry = s.carry ∧ t.zero = s.zero := by
    rw [ht]
    exact ⟨rfl, rfl, rfl⟩
  refine ⟨t, hcall, ha, hcarry, hzero, fun t' hkept => ?_⟩
  obtain ⟨hret, -⟩ := retLoadsPcFromSlot y t'
  exact ⟨_, hret, hkept.trans hslot, rfl, rfl, rfl⟩

end Sys2Proof.Machine
end

section
/-! HLT (44_system R211), and what alone ends the halted state: a reset edge (R235), a power-on edge (R230) or a new construction
(R264). -/

namespace Sys2Proof.Machine

/-- Settles O27: HLT leaves the machine stopped, and a stopped machine with no step requested idles. -/
theorem hltHalts : Obligations.HltHalts := by
  intro x s
  refine ⟨_, completes_of_exec rfl rfl rfl, rfl, fun hm hi => updates_of_update_eq (update_idle rfl ?_)⟩
  simp [State.wantStep, hm, hi]

/-! ### What ends the halted state (R211, R232) -/

/-- No tick ends the halted state (R117). -/
theorem update_halted_of_halted {s : State} (h : s.halted = true) : s.update.halted = true := by
  obtain hu | hu | hu | hu := update_cases s <;> rw [hu]
  · exact h
  · exact cycle_halted_of_halted h
  · exact cycle_halted_of_halted h
  · exact h

theorem updates_halted_of_halted {s : State} (h : s.halted = true) (n : Nat) : (s.updates n).halted = true := by
  induction n with
  | zero => exact h
  | succ n ih =>
    rw [updates_succ]
    exact update_halted_of_halted ih

/-- The power line ends the halted state only by a rising edge (R230, R231). -/
theorem scanPower_halted_of_no_rise {s : State} {l : Lines} (h : ¬ rise l.on s.prev.on = true) :
    (s.scanPower l).halted = s.halted := by
  rw [State.scanPower, if_neg h]
  split <;> rfl

/-- The reset line ends the halted state only by a rising edge (R235). -/
theorem scanReset_halted_of_no_rise {s : State} {l : Lines} (h : ¬ rise l.reset s.prev.reset = true) :
    (s.scanReset l).halted = s.halted := by
  rw [State.scanReset, if_neg h]

/-- Of what a scan does while powered, only the reset line reaches the halted state (R229). -/
theorem scanIfOn_halted_of_no_reset {s : State} {l : Lines} (h : ¬ rise l.reset s.prev.reset = true) :
    (s.scanIfOn l).halted = s.halted := by
  unfold State.scanIfOn
  split
  · simp [State.scanPowered, scanReset_halted_of_no_rise h]
  · rfl

/-- A scan with neither a reset edge nor a power-on edge keeps the halted state (R229). -/
theorem scanInputs_halted_of_no_rise {s : State} {l : Inputs} (hreset : ¬ rise l.lines.reset s.prev.reset = true)
    (hon : ¬ rise l.lines.on s.prev.on = true) : (s.scanInputs l).halted = s.halted :=
  calc (s.scanInputs l).halted
    _ = (((s.latchSwitches l).scanPower l.lines).scanIfOn l.lines).halted := State.latchLines_halted _ _
    _ = ((s.latchSwitches l).scanPower l.lines).halted := scanIfOn_halted_of_no_reset (by simpa using hreset)
    _ = s.halted := scanPower_halted_of_no_rise hon

/-- The host actions that can end the halted state (R248). -/
theorem effectOf_ends_halted {s : State} {act : HostAction} (h : s.halted = true) (ht : (s.effectOf act).halted = false) :
    (∃ l, act = .scanInputs l ∧ (rise l.lines.reset s.prev.reset = true ∨ rise l.lines.on s.prev.on = true)) ∨
      act = .construct := by
  have hkept (hsame : (s.effectOf act).halted = s.halted) : False := by simp [hsame, h] at ht
  cases act with
  | scanInputs l =>
    refine .inl ⟨l, rfl, ?_⟩
    by_contra hedges
    obtain ⟨hreset, hon⟩ := not_or.mp hedges
    exact hkept (scanInputs_halted_of_no_rise hreset hon)
  | update => exact (hkept ((update_halted_of_halted h).trans h.symm)).elim
  | importRam text => exact (hkept (by rw [State.effectOf, importRam_eq])).elim
  | getWordAt | putWordAt | exportRam | supplyKey => exact (hkept rfl).elim
  | construct => exact .inr rfl

/-- Settles O53: ticks keep the halted state, and so does every host action but a scan with one of the two edges and a construction. -/
theorem haltedEndsOnlyByResetOrPower : Obligations.HaltedEndsOnlyByResetOrPower := by
  intro s t hs hstep ht
  obtain ⟨act, rest, hin, hact⟩ | ⟨n, hticks⟩ := step_cases s
  · obtain rfl := Host.Outcome.next.inj (hact.symm.trans hstep)
    obtain ⟨l, rfl, hedges⟩ | rfl := effectOf_ends_halted (s := { s with inbox := rest }) hs ht
    · exact .inl ⟨l, rest, hin, by simpa [rise] using hedges⟩
    · exact .inr ⟨rest, hin⟩
  · obtain rfl := Host.Outcome.next.inj (hticks.symm.trans hstep)
    simp [updates_halted_of_halted hs n] at ht

end Sys2Proof.Machine
end

section
/-! One scan of the front-panel lines (60_exceptions R225 to R241): what each line does at its edges and levels, that a line is
read only for its own edge (R229), and from these the power, run, step and panel lines. -/

open Sys2Proof.Certificates

namespace Sys2Proof.Machine

/-- The switch latch keeps the low twelve bits of the bank (R8, R240). -/
theorem wrapN_natCast (n : Nat) : wrapN n = BitVec.ofNat 12 n := BitVec.ofInt_natCast 12 n

/-! ### Edges (R229) -/

/-- A line at the level of the last scan does not rise. -/
@[simp] theorem rise_self (b : Bool) : rise b b = false := by cases b <;> rfl

/-- A line at the level of the last scan does not fall. -/
@[simp] theorem fall_self (b : Bool) : fall b b = false := by cases b <;> rfl

theorem rise_eq_false_of_held {now before : Bool} (h : now = true → before = true) : rise now before = false := by
  cases now
  · rfl
  · rw [h rfl]; rfl

/-! ### What each line does -/

section
variable {s : State} {l : Lines}

theorem scanReset_of_no_rise (h : rise l.reset s.prev.reset = false) : s.scanReset l = s := by
  simp [State.scanReset, h]

theorem scanReset_of_rise (hl : l.reset = true) (hprev : s.prev.reset = false) : s.scanReset l = s.doReset := by
  simp [State.scanReset, rise, hl, hprev]

theorem scanRun_of_low (hl : l.run = false) : s.scanRun l = { s with running := false } := by
  simp [State.scanRun, hl]

theorem scanRun_of_rise (hl : l.run = true) (hprev : s.prev.run = false) (hh : s.halted = false) : s.scanRun l = s.arm := by
  simp [State.scanRun, rise, hl, hprev, hh]

/-- A run line held high, or high on a halted machine, does nothing (R232). -/
theorem scanRun_of_high (hl : l.run = true) (h : s.prev.run = true ∨ s.halted = true) : s.scanRun l = s := by
  obtain h | h := h <;> simp [State.scanRun, rise, hl, h]

/-- While the machine runs the panel lines are not read (R225). -/
theorem scanPanel_of_running (h : s.running = true) : s.scanPanel l = s := by
  simp [State.scanPanel, h]

/-- On a stopped machine the four panel lines act one after another (R229). -/
theorem scanPanel_of_stopped (h : s.running = false) :
    s.scanPanel l = (((s.scanExamine l).scanExamineNext l).scanDeposit l).scanDepositNext l := by
  simp [State.scanPanel, h]

/-- While the run line is high the step lines are not read (R233, R234). -/
theorem scanSteps_of_run (hl : l.run = true) : s.scanSteps l = s := by
  simp [State.scanSteps, hl]

/-- A step line's edge requests its step and drops no other (R233, R234). -/
theorem scanSteps_of_low (hl : l.run = false) : s.scanSteps l =
    { s with mPending := s.mPending || rise l.mStep s.prev.mStep, iActive := s.iActive || rise l.iStep s.prev.iStep } := by
  simp [State.scanSteps, hl]

theorem scanSteps_of_rise (hl : l.run = false) (hm : l.mStep = true) (hprevM : s.prev.mStep = false) (hi : l.iStep = true)
    (hprevI : s.prev.iStep = false) : s.scanSteps l = { s with mPending := true, iActive := true } := by
  simp [scanSteps_of_low hl, rise, hm, hprevM, hi, hprevI]

theorem scanSteps_of_no_rise (hm : rise l.mStep s.prev.mStep = false) (hi : rise l.iStep s.prev.iStep = false) :
    s.scanSteps l = s := by
  simp [State.scanSteps, hm, hi]

/-- A stopped machine is what disarming it leaves. -/
theorem disarm_of_stopped (h : s.running = false) : ({ s with running := false } : State) = s := by
  rw [← h]

/-- On a machine that is stopped, not halted and with no step pending, a run edge only arms (R232). -/
theorem scanRun_of_idle (hrun : s.running = false) (hh : s.halted = false) (hm : s.mPending = false)
    (hi : s.iActive = false) : s.scanRun l = { s with running := rise l.run s.prev.run } := by
  cases hl : l.run with
  | false => exact scanRun_of_low hl
  | true =>
    cases hprev : s.prev.run with
    | false => rw [scanRun_of_rise hl hprev hh]; simp [State.arm, rise, hm, hi]
    | true => rw [scanRun_of_high hl (.inl hprev), rise_self, disarm_of_stopped hrun]

end

/-! ### Each line is read for its own edge alone (R229) -/

section
variable {s : State} {p : Lines} (l : Lines)

theorem scanReset_latchLines (h : p.reset = s.prev.reset) : (s.latchLines p).scanReset l = (s.scanReset l).latchLines p := by
  unfold State.scanReset
  rw [State.latchLines_prev, h]
  split <;> rfl

theorem scanRun_latchLines (h : p.run = s.prev.run) : (s.latchLines p).scanRun l = (s.scanRun l).latchLines p := by
  unfold State.scanRun
  rw [State.latchLines_prev, h, State.latchLines_halted]
  split_ifs <;> rfl

theorem scanExamine_latchLines (h : p.examine = s.prev.examine) :
    (s.latchLines p).scanExamine l = (s.scanExamine l).latchLines p := by
  unfold State.scanExamine
  rw [State.latchLines_prev, h]
  split <;> rfl

theorem scanExamineNext_latchLines (h : p.examineNext = s.prev.examineNext) :
    (s.latchLines p).scanExamineNext l = (s.scanExamineNext l).latchLines p := by
  unfold State.scanExamineNext
  rw [State.latchLines_prev, h]
  split <;> rfl

theorem scanDeposit_latchLines (h : p.deposit = s.prev.deposit) :
    (s.latchLines p).scanDeposit l = (s.scanDeposit l).latchLines p := by
  unfold State.scanDeposit
  rw [State.latchLines_prev, h]
  split <;> rfl

theorem scanDepositNext_latchLines (h : p.depositNext = s.prev.depositNext) :
    (s.latchLines p).scanDepositNext l = (s.scanDepositNext l).latchLines p := by
  unfold State.scanDepositNext
  rw [State.latchLines_prev, h]
  split <;> rfl

theorem scanPanel_latchLines (hex : p.examine = s.prev.examine) (hexNext : p.examineNext = s.prev.examineNext)
    (hdep : p.deposit = s.prev.deposit) (hdepNext : p.depositNext = s.prev.depositNext) :
    (s.latchLines p).scanPanel l = (s.scanPanel l).latchLines p := by
  unfold State.scanPanel
  rw [State.latchLines_running]
  split
  · rfl
  · rw [scanExamine_latchLines l hex, scanExamineNext_latchLines l (by simpa), scanDeposit_latchLines l (by simpa),
      scanDepositNext_latchLines l (by simpa)]

theorem scanSteps_latchLines (hm : p.mStep = s.prev.mStep) (hi : p.iStep = s.prev.iStep) :
    (s.latchLines p).scanSteps l = (s.scanSteps l).latchLines p := by
  unfold State.scanSteps
  rw [State.latchLines_prev, hm, hi]
  split <;> rfl

/-- What a scan does while powered does not depend on the level the power line had (R229). -/
theorem scanPowered_latchPower (s : State) (b : Bool) :
    (s.latchLines { s.prev with on := b }).scanPowered l = (s.scanPowered l).latchLines { s.prev with on := b } := by
  unfold State.scanPowered
  rw [scanReset_latchLines l (by rfl), scanRun_latchLines l (by simp),
    scanPanel_latchLines l (by simp) (by simp) (by simp) (by simp), scanSteps_latchLines l (by simp) (by simp)]

end

/-! ### The power line (R230, R231) -/

/-- A scan with a falling power line is power-off and the two latches, whatever the other lines do (R231). -/
theorem scanInputs_of_powerFall {s : State} {l : Inputs} (hprev : s.prev.on = true) (hl : l.lines.on = false) :
    s.scanInputs l = ((s.latchSwitches l).powerOff).latchLines l.lines := by
  have hpower : (s.latchSwitches l).scanPower l.lines = (s.latchSwitches l).powerOff := by
    simp [State.scanPower, rise, fall, hprev, hl]
  rw [State.scanInputs, hpower]
  rfl

/-- A scan with a rising power line is power-on, then the lines that count while powered (R229, R230). -/
theorem scanInputs_of_powerRise {s : State} {l : Inputs} (hprev : s.prev.on = false) (hl : l.lines.on = true) :
    s.scanInputs l = ((s.latchSwitches l).powerOn.scanPowered l.lines).latchLines l.lines := by
  have hpower : (s.latchSwitches l).scanPower l.lines = (s.latchSwitches l).powerOn := by
    simp [State.scanPower, rise, hprev, hl]
  rw [State.scanInputs, hpower]
  rfl

/-- Settles O44: the scan powers the machine off, and no tick runs on a machine that is off. -/
theorem powerOffStops : Obligations.PowerOffStops := by
  intro s l hprev hl
  rw [scanInputs_of_powerFall hprev hl, ← wrapN_natCast]
  exact ⟨rfl, updates_of_update_eq (update_off rfl)⟩

/-- On a machine just powered on a reset edge shows in PC alone (R230, R260). -/
theorem scanReset_powerOn (s : State) (l : Lines) :
    s.powerOn.scanReset l = s.powerOn.setPc (if rise l.reset s.prev.reset = true then 0 else s.powerOn.pc) := by
  unfold State.scanReset
  rw [State.powerOn_prev]
  split <;> rfl

/-- A scan that powers the machine on, with the run and reset lines at any level and the others low (R222, R229, R230). -/
theorem scanInputs_powerOn {s : State} (hprev : s.prev.on = false) (run reset : Bool) (sw : Nat) :
    s.scanInputs { lines := { onLine with run := run, reset := reset }, switches := sw } =
      { s.powerOn with
        pc := if rise reset s.prev.reset = true then 0 else s.powerOn.pc, running := rise run s.prev.run, sw := wrapN sw,
        prev := { onLine with run := run, reset := reset } } := by
  rw [scanInputs_of_powerRise hprev rfl, State.scanPowered, scanReset_powerOn, scanRun_of_idle rfl rfl rfl rfl,
    scanPanel_of_low _ rfl rfl rfl rfl, scanSteps_of_no_rise rfl rfl]
  rfl

/-- Settles O45: power-on leaves a machine that the reset and run lines find idle, and a scan reads the power line's last level for
power alone. -/
theorem powerOnDraws : Obligations.PowerOnDraws := by
  refine fun s hprev => ⟨fun run reset sw => ⟨_, rfl, ?_⟩, fun l sw hl => ?_⟩
  · rw [scanInputs_powerOn hprev, ← wrapN_natCast]
    exact ⟨rfl, (State.Sound.powerOn s).memWf, construct_memRead s⟩
  · have hon : s.scanInputs { lines := onLine, switches := sw } = { s.powerOn with sw := wrapN sw, prev := onLine } :=
      scanInputs_powerOn hprev false false sw
    rw [scanInputs_of_powerRise hprev hl, hon, scanInputs_of_powerHeld rfl rfl hl]
    exact (congrArg (State.latchLines · l.lines)
      (scanPowered_latchPower l.lines (s.latchSwitches l).powerOn true)).symm

/-! ### The run line (R232) -/

/-- The run line alone, after the reset line, says whether a scan of a powered machine leaves it running (R229, R232). -/
theorem scanInputs_running {s : State} {l : Inputs} (hon : s.on = true) (hprev : s.prev.on = true) (hl : l.lines.on = true) :
    (s.scanInputs l).running = (((s.latchSwitches l).scanReset l.lines).scanRun l.lines).running := by
  simp [scanInputs_of_powerHeld hon hprev hl, State.scanPowered]

/-- A machine that a reset edge finds halted is not halted after it (R222, R260). -/
theorem scanReset_halted_eq_false {s : State} {l : Lines}
    (h : s.halted = false ∨ (l.reset = true ∧ s.prev.reset = false)) : (s.scanReset l).halted = false := by
  obtain hh | ⟨hl, hprev⟩ := h
  · unfold State.scanReset
    split
    · rfl
    · exact hh
  · rw [scanReset_of_rise hl hprev, State.doReset_halted]

/-- A scan that arms the machine reads neither the panel nor the step lines (R225, R232). -/
theorem scanInputs_of_arms {s : State} {l : Inputs} (hon : s.on = true) (hprev : s.prev.on = true) (hl : l.lines.on = true)
    (hrun : l.lines.run = true) (hrise : s.prev.run = false)
    (hh : s.halted = false ∨ (l.lines.reset = true ∧ s.prev.reset = false)) :
    s.scanInputs l = (((s.latchSwitches l).scanReset l.lines).arm).latchLines l.lines := by
  rw [scanInputs_of_powerHeld hon hprev hl, State.scanPowered, 
    scanRun_of_rise hrun (by simpa) (scanReset_halted_eq_false (s := s.latchSwitches l) hh),
    scanPanel_of_running rfl, scanSteps_of_run hrun]

/-- Settles O47: low, a rising edge, a level or edge that does nothing, and a level held through a reset edge. -/
theorem runLineArmsOnEdge : Obligations.RunLineArmsOnEdge := by
  intro s l hon hprev hl
  refine ⟨fun hrun => ?low, fun hrun hrise hh => ?edge, fun hrun hkept hreset => ?kept, fun hrun hheld hreset hedge => ?reset⟩
  case low => rw [scanInputs_running hon hprev hl, scanRun_running_of_low _ hrun]
  case edge =>
    rw [scanInputs_of_arms hon hprev hl hrun hrise hh]
    exact ⟨rfl, rfl, rfl⟩
  case kept =>
    rw [scanInputs_running hon hprev hl, 
      scanReset_of_no_rise (s := s.latchSwitches l) (rise_eq_false_of_held hreset),
      scanRun_of_high (s := s.latchSwitches l) hrun hkept]
    rfl
  case reset =>
    rw [scanInputs_running hon hprev hl, scanReset_of_rise (s := s.latchSwitches l) hreset hedge,
      scanRun_of_high (s := (s.latchSwitches l).doReset) hrun (.inl hheld)]
    rfl

/-- Settles O51: no edge of reset or run, and neither the panel nor the step lines are read. -/
theorem panelIgnoredWhileRunning : Obligations.PanelIgnoredWhileRunning := by
  intro s l hon hprev hrunning hheld hl hrun hreset
  rw [scanInputs_of_powerHeld hon hprev hl, State.scanPowered, scanReset_of_no_rise (by simp [rise, hreset]),
    scanRun_of_high (s := s.latchSwitches l) hrun (.inl hheld), scanPanel_of_running (s := s.latchSwitches l) hrunning,
    scanSteps_of_run hrun, ← wrapN_natCast]
  rfl

/-! ### Scans of the same inputs (R229) -/

/-- With the lines at their latched levels the panel does nothing. -/
theorem scanPanel_latched (s : State) : s.scanPanel s.prev = s := by
  simp [State.scanPanel, State.scanExamine, State.scanExamineNext, State.scanDeposit, State.scanDepositNext]

/-- With the lines at their latched levels the run line only stops a machine left running under a low line (R232). -/
theorem scanRun_latched {s : State} (h : s.running = true → s.prev.run = true) : s.scanRun s.prev = s := by
  cases hl : s.prev.run with
  | true => exact scanRun_of_high hl (.inl hl)
  | false => rw [scanRun_of_low hl, disarm_of_stopped (by simpa [hl] using h)]

/-- A scan of the latched lines and switches changes nothing (R229). -/
theorem scanInputs_of_latched {s : State} {l : Inputs} (hprev : s.prev = l.lines) (hsw : s.sw = wrapN l.switches)
    (hrun : s.on = true → s.running = true → l.lines.run = true) : s.scanInputs l = s := by
  have hlatch : s.latchSwitches l = s := by rw [State.latchSwitches, ← hsw]
  have hpower : s.scanPower s.prev = s := by simp [State.scanPower]
  have hlines : s.scanIfOn s.prev = s := by
    unfold State.scanIfOn
    split
    · next hon =>
      rw [State.scanPowered, scanReset_of_no_rise (rise_self _), scanRun_latched (by rw [hprev]; exact hrun hon),
        scanPanel_latched, scanSteps_of_no_rise (rise_self _) (rise_self _)]
    · rfl
  rw [State.scanInputs, hlatch, ← hprev, hpower, hlines]
  rfl

/-- A scan leaves a powered machine running only with the run line high (R232). -/
theorem run_of_scanInputs_running {s : State} {l : Inputs} (hon : (s.scanInputs l).on = true)
    (hrun : (s.scanInputs l).running = true) : l.lines.run = true := by
  simp only [State.scanInputs, State.latchLines_on, State.latchLines_running, State.scanIfOn_on] at hon hrun
  rw [State.scanIfOn, if_pos hon] at hrun
  exact run_of_scanPowered_running hrun

@[simp] theorem scanInputs_sw (s : State) (l : Inputs) : (s.scanInputs l).sw = wrapN l.switches := by
  simp [State.scanInputs]

/-- Settles O52: a scan latches its lines and switches. -/
theorem scanIsIdempotent : Obligations.ScanIsIdempotent :=
  fun s l => scanInputs_of_latched rfl (scanInputs_sw s l) run_of_scanInputs_running

/-! ### The machine-step line (R233) -/

/-- A scan with a rising machine-step line alone on a powered machine stops it and requests one machine cycle (R232, R233). -/
theorem scanInputs_mStep {s : State} (hon : s.on = true) (hprev : s.prev.on = true) (hstep : s.prev.mStep = false) (sw : Nat) :
    s.scanInputs { lines := { onLine with mStep := true }, switches := sw } =
      { s with running := false, mPending := true, sw := wrapN sw, prev := { onLine with mStep := true } } := by
  rw [scanInputs_of_powerHeld hon hprev rfl, State.scanPowered, scanReset_of_no_rise rfl, scanRun_of_low rfl,
    scanPanel_of_low _ rfl rfl rfl rfl, scanSteps_of_low rfl]
  simp [State.latchSwitches, State.latchLines, rise, onLine, Lines.low, hstep]

@[simp] theorem applyMicroOp_sw (s : State) (c : Nat) : (s.applyMicroOp c).sw = s.sw := by
  unfold State.applyMicroOp
  split <;> simp

@[simp] theorem executeCycle_sw (s : State) (c : Nat) : (s.executeCycle c).sw = s.sw := by
  unfold State.executeCycle
  split <;> simp

/-- No machine cycle latches the switches (R240). -/
@[simp] theorem cycle_sw (s : State) : s.cycle.sw = s.sw := by
  unfold State.cycle
  split <;> simp

/-- With no instruction step active, a forced cycle consumes the request for it (R118). -/
theorem consumeStep_mPending {s : State} (hi : s.iActive = false) : s.consumeStep = { s with mPending := false } := by
  simp [State.consumeStep, hi]

/-- Settles O48: the tick after the scan runs the requested cycle, and a scan of the same inputs requests none. -/
theorem machineStepFiresOncePerEdge : Obligations.MachineStepFiresOncePerEdge := by
  intro s sw hon hprev hstep hh hi
  rw [scanInputs_mStep hon hprev hstep, ← wrapN_natCast]
  obtain ⟨s1, hs1⟩ : ∃ s1 : State, s1 =
    { s with running := false, mPending := true, sw := wrapN sw, prev := { onLine with mStep := true } } := ⟨_, rfl⟩
  have hrun : s1.cycle.running = false := Bool.eq_false_of_not_eq_true fun hr => by
    simpa [hs1] using running_of_cycle_running hr
  have hactive : s1.cycle.iActive = false := by simp [hs1, hi]
  have htick : s1.update = { s1.cycle with mPending := false } := by
    rw [update_forced (by rw [hs1]; exact hon) (by rw [hs1]) (by rw [hs1]; rfl) (by rw [hs1]; exact hh),
      consumeStep_mPending hactive]
  rw [← hs1, htick]
  refine ⟨_, rfl, rfl, ?_⟩
  rw [scanInputs_of_latched (by simp [hs1]) (by simp [hs1]) (by simp [hrun])]
  exact update_idle hrun (by simpa [State.wantStep] using hactive)

/-! ### Examine and deposit (R236 to R239) -/

section
variable {s : State} {l : Lines}

theorem scanExamine_of_low (hl : l.examine = false) : s.scanExamine l = s := by
  simp [State.scanExamine, rise, hl]

theorem scanExamine_of_rise (hl : l.examine = true) (hprev : s.prev.examine = false) :
    s.scanExamine l = s.examineAt s.sw := by
  simp [State.scanExamine, rise, hl, hprev]

theorem scanExamineNext_of_low (hl : l.examineNext = false) : s.scanExamineNext l = s := by
  simp [State.scanExamineNext, rise, hl]

theorem scanExamineNext_of_rise (hl : l.examineNext = true) (hprev : s.prev.examineNext = false) :
    s.scanExamineNext l = s.examineAt (s.pc + 1) := by
  simp [State.scanExamineNext, rise, hl, hprev]

theorem scanDeposit_of_low (hl : l.deposit = false) : s.scanDeposit l = s := by
  simp [State.scanDeposit, rise, hl]

theorem scanDeposit_of_rise (hl : l.deposit = true) (hprev : s.prev.deposit = false) :
    s.scanDeposit l = s.memWrite s.pc.toNat s.sw := by
  simp [State.scanDeposit, rise, hl, hprev]

theorem scanDepositNext_of_low (hl : l.depositNext = false) : s.scanDepositNext l = s := by
  simp [State.scanDepositNext, rise, hl]

theorem scanDepositNext_of_rise (hl : l.depositNext = true) (hprev : s.prev.depositNext = false) :
    s.scanDepositNext l = (s.setPc (s.pc + 1)).memWrite (s.pc + 1).toNat s.sw := by
  simp [State.scanDepositNext, rise, hl, hprev]

end

/-- A scan of a powered machine that is stopped, with the run and reset lines low: the panel lines, then the step lines (R229). -/
theorem scanInputs_of_stopped {s : State} {l : Inputs} (hon : s.on = true) (hprev : s.prev.on = true)
    (hstopped : s.running = false) (hl : l.lines.on = true) (hreset : l.lines.reset = false) (hrun : l.lines.run = false) :
    s.scanInputs l =
      ((((((s.latchSwitches l).scanExamine l.lines).scanExamineNext l.lines).scanDeposit l.lines).scanDepositNext
        l.lines).scanSteps l.lines).latchLines l.lines := by
  rw [scanInputs_of_powerHeld hon hprev hl, State.scanPowered, scanReset_of_no_rise (by simp [rise, hreset]),
    scanRun_of_low hrun, disarm_of_stopped (by exact hstopped), scanPanel_of_stopped (by exact hstopped)]

/-- Settles O50: each line by its edge, the others low, and all of them in the order of R229. -/
theorem panelExaminesAndDeposits : Obligations.PanelExaminesAndDeposits := by
  intro s sw hon hprev hstopped
  rw [← wrapN_natCast]
  refine ⟨fun h => ?examine, fun h => ?examineNext, fun h => ?deposit, fun h => ?depositNext, fun l hl h => ?all⟩
  case examine =>
    rw [scanInputs_of_stopped hon hprev hstopped rfl rfl rfl, scanExamine_of_rise rfl (by exact h),
      scanExamineNext_of_low rfl, scanDeposit_of_low rfl, scanDepositNext_of_low rfl, scanSteps_of_no_rise rfl rfl]
    rfl
  case examineNext =>
    rw [scanInputs_of_stopped hon hprev hstopped rfl rfl rfl, scanExamine_of_low rfl,
      scanExamineNext_of_rise rfl (by exact h), scanDeposit_of_low rfl, scanDepositNext_of_low rfl,
      scanSteps_of_no_rise rfl rfl]
    rfl
  case deposit =>
    rw [scanInputs_of_stopped hon hprev hstopped rfl rfl rfl, scanExamine_of_low rfl, scanExamineNext_of_low rfl,
      scanDeposit_of_rise rfl (by exact h), scanDepositNext_of_low rfl, scanSteps_of_no_rise rfl rfl, memWrite_toNat]
    rfl
  case depositNext =>
    rw [scanInputs_of_stopped hon hprev hstopped rfl rfl rfl, scanExamine_of_low rfl, scanExamineNext_of_low rfl,
      scanDeposit_of_low rfl, scanDepositNext_of_rise rfl (by exact h), scanSteps_of_no_rise rfl rfl, memWrite_toNat]
    rfl
  case all =>
    obtain ⟨hex, hexNext, hdep, hdepNext, hm, hi⟩ : s.prev.examine = false ∧ s.prev.examineNext = false ∧
        s.prev.deposit = false ∧ s.prev.depositNext = false ∧ s.prev.mStep = false ∧ s.prev.iStep = false := by
      rw [h]; exact ⟨rfl, rfl, rfl, rfl, rfl, rfl⟩
    subst hl
    rw [scanInputs_of_stopped hon hprev hstopped rfl rfl rfl, scanExamine_of_rise rfl (by exact hex),
      scanExamineNext_of_rise rfl (by exact hexNext), scanDeposit_of_rise rfl (by exact hdep),
      scanDepositNext_of_rise rfl (by exact hdepNext), scanSteps_of_rise rfl rfl (by exact hm) rfl (by exact hi),
      memWrite_toNat, memWrite_toNat]
    rfl

end Sys2Proof.Machine
end

section
/-! The host's RAM text adapter (60_exceptions R242 to R244): what import answers and loads, how a text parses, and what the exported
text is, character by character; it parses to the words it was made of. -/

namespace Sys2Proof.Machine

/-! ### Octal digits (R243, R244) -/

/-- An octal digit as a comparison of characters (R243). -/
theorem octalValue_eq (c : Char) : octalValue c = if '0' ≤ c ∧ c ≤ '7' then some (c.toNat - 48) else none := rfl

/-- The digits of a text are the values of its octal characters (R243). -/
theorem filterMap_octalValue (text : List Char) :
    text.filterMap octalValue = (text.filter fun c => decide ('0' ≤ c ∧ c ≤ '7')).map (·.toNat - 48) := by
  induction text with
  | nil => rfl
  | cons c rest ih =>
    by_cases hc : '0' ≤ c ∧ c ≤ '7' <;> simp [octalValue_eq, hc, ih]

/-- The value of an octal character is below eight. -/
theorem toNat_sub_lt_of_octal {c : Char} (h : '0' ≤ c ∧ c ≤ '7') : c.toNat - 48 < 8 := by
  have : c.toNat ≤ 55 := h.2
  omega

theorem octalValue_octalDigit (d : Nat) : octalValue (octalDigit d) = some (d % 8) := by
  have h : ∀ n < 8, octalValue (Char.ofNat (48 + n)) = some n := by decide
  exact h (d % 8) (Nat.mod_lt d (by decide))

/-! ### Grouping by fours (R243) -/

/-- Digits that start no group are fewer than four. -/
theorem length_lt_four_of_no_group {ds : List Nat}
    (h : ∀ (d3 d2 d1 d0 : Nat) (rest : List Nat), ds = d3 :: d2 :: d1 :: d0 :: rest → False) : ds.length < 4 := by
  match ds, h with
  | [], _ | [_], _ | [_, _], _ | [_, _, _], _ => simp
  | d3 :: d2 :: d1 :: d0 :: rest, h => exact (h d3 d2 d1 d0 rest rfl).elim

theorem length_groupWords (ds : List Nat) : (groupWords ds).length = ds.length / 4 := by
  induction ds using groupWords.induct with
  | case1 d3 d2 d1 d0 rest ih => simp only [groupWords, List.length_cons, ih]; omega
  | case2 ds hshort =>
    rw [groupWords.eq_2 ds hshort, Nat.div_eq_of_lt (length_lt_four_of_no_group hshort), List.length_nil]

/-- Word `k` is made of the four digits from place `4 * k` on (R243). -/
theorem getElem?_groupWords {ds : List Nat} {k d3 d2 d1 d0 : Nat} (h3 : ds[4 * k]? = some d3) (h2 : ds[4 * k + 1]? = some d2)
    (h1 : ds[4 * k + 2]? = some d1) (h0 : ds[4 * k + 3]? = some d0) :
    (groupWords ds)[k]? = some (wrapN (512 * d3 + 64 * d2 + 8 * d1 + d0 : Nat)) := by
  induction ds using groupWords.induct generalizing k with
  | case1 e3 e2 e1 e0 rest ih =>
    cases k with
    | zero => cases h3; cases h2; cases h1; cases h0; rfl
    | succ k => exact ih h3 h2 h1 h0
  | case2 ds hshort =>
    have hlen := length_lt_four_of_no_group hshort
    obtain ⟨hlast, -⟩ := List.getElem?_eq_some_iff.mp h0
    omega

/-- Four octal digits fit a word (R21, R243). -/
theorem toNat_wrapN_octal {d3 d2 d1 d0 : Nat} (h3 : d3 < 8) (h2 : d2 < 8) (h1 : d1 < 8) (h0 : d0 < 8) :
    (wrapN (512 * d3 + 64 * d2 + 8 * d1 + d0 : Nat)).toNat = 512 * d3 + 64 * d2 + 8 * d1 + d0 := by
  rw [wrapN_natCast, BitVec.toNat_ofNat]
  omega

/-- Settles O55: the text's digits are those of its octal characters, grouped by fours. -/
theorem parseGroupsOctalDigits : Obligations.ParseGroupsOctalDigits := by
  intro text
  refine ⟨by simp only [parseText, filterMap_octalValue, List.filter_filter, Bool.and_self], ?_, fun k _ d hd => ?_⟩
  · rw [parseText, filterMap_octalValue, length_groupWords, List.length_map]
  · have hdigit (n : Fin 4) : (text.filterMap octalValue)[4 * k + n.val]? = some ((d n).toNat - 48) := by
      rw [filterMap_octalValue, List.getElem?_map, hd n]; rfl
    have hlt (n : Fin 4) : (d n).toNat - 48 < 8 :=
      toNat_sub_lt_of_octal (by simpa using List.of_mem_filter (List.mem_of_getElem? (hd n)))
    rw [parseText, List.getD_eq_getElem?_getD, getElem?_groupWords (hdigit 0) (hdigit 1) (hdigit 2) (hdigit 3)]
    exact toNat_wrapN_octal (hlt 0) (hlt 1) (hlt 2) (hlt 3)

/-! ### Import (R242) -/

/-- What import answers on a powered machine that is stopped, by the words of the text. -/
theorem importResult_of_stopped {s : State} (hon : s.on = true) (hrun : s.running = false) (text : List Char) :
    s.importResult text = if parseText text = [] then .noValidData
      else if 64 < (parseText text).length then .addressOutOfRange else .ok := by
  rw [State.importResult, hon, hrun]
  rfl

theorem importRam_of_ok {s : State} {text : List Char} (h : s.importResult text = .ok) :
    s.importRam text = s.loadRam (parseText text) := by
  rw [State.importRam, if_pos h]

/-- Zeros after a list read as the list's default does. -/
theorem getD_append_replicate_zero (ws : List Word) (n j : Nat) : (ws ++ List.replicate n 0).getD j 0 = ws.getD j 0 := by
  obtain hj | hj := Nat.lt_or_ge j ws.length
  · rw [List.getD_append _ _ _ _ hj]
  · rw [List.getD_append_right _ _ _ _ hj, List.getD_eq_default _ _ hj, List.getD_eq_getElem?_getD,
      List.getElem?_getD_replicate_default_eq]

/-- After an import of words that fit, RAM reads as the words, then zeros (R242). -/
theorem loadRam_memRead (s : State) {ws : List Word} (h : ws.length ≤ Config.ramWords) (j : Int) :
    (s.loadRam ws).memRead j = ws.getD (wrapR j) 0 := by
  rw [State.memRead, State.loadRam_mem, Mem.read_fill (by simp; omega)]
  exact getD_append_replicate_zero ws _ (wrapR j)

/-- Settles O54: off, running, and on a stopped machine no words, too many, or words that fit. -/
theorem importLoadsAndPads : Obligations.ImportLoadsAndPads := by
  intro s text
  refine ⟨fun hon => by simp [State.importResult, hon], fun hon hrun => by simp [State.importResult, hon, hrun],
    fun hon hrun => ?_, fun h => by rw [State.importRam, if_neg h], fun h => ?_⟩
  · rw [importResult_of_stopped hon hrun]
    refine ⟨fun hnil => if_pos hnil, fun hlong => ?_, fun hpos hfit => ?_⟩
    · rw [if_neg (List.ne_nil_of_length_pos (by omega)), if_pos hlong]
    · rw [if_neg (List.ne_nil_of_length_pos hpos), if_neg (by omega)]
  · have hfit := length_of_importResult_ok h
    rw [importRam_of_ok h]
    exact ⟨rfl, fill_padded_wf hfit, loadRam_memRead s hfit⟩

/-! ### The exported text parses to its words (R244) -/

/-- What stands between words holds no digit. -/
theorem parseText_separatorBefore (i : Nat) (rest : List Char) : parseText (separatorBefore i ++ rest) = parseText rest := by
  unfold separatorBefore
  split_ifs <;> rfl

/-- A word is its four octal digits. -/
theorem parseText_wordDigits (w : Word) (rest : List Char) : parseText (wordDigits w ++ rest) = w :: parseText rest := by
  have hw := w.isLt
  have hword : wrapN (512 * (w.toNat / 512 % 8) + 64 * (w.toNat / 64 % 8) + 8 * (w.toNat / 8 % 8) + w.toNat % 8 : Nat) = w :=
    BitVec.eq_of_toNat_eq <| by
      rw [toNat_wrapN_octal (by omega) (by omega) (by omega) (by omega)]
      omega
  simp only [parseText, wordDigits, List.cons_append, List.nil_append, List.filterMap_cons, octalValue_octalDigit, groupWords,
    hword]

theorem parseText_exportWords (i : Nat) (ws : List Word) : parseText (exportWords i ws) = ws := by
  induction ws generalizing i with
  | nil => rfl
  | cons w rest ih =>
    rw [exportWords, List.append_assoc, parseText_separatorBefore, parseText_wordDigits, ih]

@[simp] theorem length_ramWordList (s : State) : s.ramWordList.length = 64 := by
  simp [State.ramWordList, Config.ramWords]

/-- Settles O56: the text parses to every word of RAM in order, which fill the memory. -/
theorem importOfExportRestores : Obligations.ImportOfExportRestores := by
  intro s hwf hon hrun
  have hparse : parseText s.exportText = s.ramWordList := parseText_exportWords 0 s.ramWordList
  have hok : s.importResult s.exportText = .ok := by
    rw [importResult_of_stopped hon hrun, hparse, if_neg (List.ne_nil_of_length_pos (by simp)), if_neg (by simp)]
  have hmem : Mem.fill 0 (s.ramWordList ++ List.replicate (Config.ramWords - s.ramWordList.length) 0) = s.mem := by
    rw [length_ramWordList, Config.ramWords, Nat.sub_self, List.replicate_zero, List.append_nil, fill_ramWordList hwf]
  exact ⟨hok, by rw [importRam_of_ok hok, hparse, State.loadRam, hmem]⟩

/-! ### The exported text, character by character (R244) -/

/-- The digit of a word at each of the four places, most significant first. -/
theorem getElem?_wordDigits (w : Word) {d : Nat} (hd : d < 4) :
    (wordDigits w)[d]? = some (Char.ofNat (48 + w.toNat / 8 ^ (3 - d) % 8)) := by
  interval_cases d <;> simp [wordDigits, octalDigit]

/-- A word that is not the first is a separator and four digits. -/
theorem exportWords_succ_cons (i : Nat) (w : Word) (rest : List Word) :
    exportWords (i + 1) (w :: rest) =
      (if (i + 1) % 8 = 0 then '\n' else ' ') :: (wordDigits w ++ exportWords (i + 2) rest) := by
  rw [exportWords, separatorBefore, if_neg (Nat.succ_ne_zero i)]
  split <;> rfl

theorem length_exportWords_succ (i : Nat) (ws : List Word) : (exportWords (i + 1) ws).length = 5 * ws.length := by
  induction ws generalizing i with
  | nil => rfl
  | cons w rest ih =>
    rw [exportWords_succ_cons, List.length_cons, List.length_append, ih, List.length_cons, wordDigits]
    simp only [List.length_cons, List.length_nil]
    omega

/-- Past one word, the text goes on with the words after it. -/
theorem getElem?_exportWords_succ_cons (i n : Nat) (w : Word) (rest : List Word) :
    (exportWords (i + 1) (w :: rest))[n + 5]? = (exportWords (i + 2) rest)[n]? := by
  rw [exportWords_succ_cons]
  rfl

theorem separator_exportWords_succ {i k : Nat} {ws : List Word} (hk : k < ws.length) :
    (exportWords (i + 1) ws)[5 * k]? = some (if (i + 1 + k) % 8 = 0 then '\n' else ' ') := by
  induction ws generalizing i k with
  | nil => cases hk
  | cons w rest ih =>
    cases k with
    | zero => rw [exportWords_succ_cons]; rfl
    | succ k =>
      rw [Nat.mul_succ, getElem?_exportWords_succ_cons, ih (Nat.lt_of_succ_lt_succ hk), Nat.add_right_comm (i + 1) 1 k]
      rfl

theorem digit_exportWords_succ {i k d : Nat} {ws : List Word} {w : Word} (hw : ws[k]? = some w) (hd : d < 4) :
    (exportWords (i + 1) ws)[5 * k + d + 1]? = (wordDigits w)[d]? := by
  induction ws generalizing i k with
  | nil => cases hw
  | cons v rest ih =>
    cases k with
    | zero =>
      cases hw
      rw [exportWords_succ_cons, Nat.mul_zero, Nat.zero_add, List.getElem?_cons_succ, List.getElem?_append_left hd]
    | succ k =>
      rw [show 5 * (k + 1) + d + 1 = 5 * k + d + 1 + 5 by omega, getElem?_exportWords_succ_cons]
      exact ih hw

/-- Past the first word, the text goes on with a separator. -/
theorem getElem?_exportWords_zero_cons (n : Nat) (w : Word) (rest : List Word) :
    (exportWords 0 (w :: rest))[n + 4]? = (exportWords 1 rest)[n]? := rfl

theorem length_exportWords_zero_cons (w : Word) (rest : List Word) :
    (exportWords 0 (w :: rest)).length = 5 * rest.length + 4 :=
  congrArg (· + 4) (length_exportWords_succ 0 rest)

theorem digit_exportWords_zero {k d : Nat} {ws : List Word} {w : Word} (hw : ws[k]? = some w) (hd : d < 4) :
    (exportWords 0 ws)[5 * k + d]? = (wordDigits w)[d]? := by
  cases ws with
  | nil => cases hw
  | cons v rest =>
    cases k with
    | zero =>
      cases hw
      rw [Nat.mul_zero, Nat.zero_add]
      exact List.getElem?_append_left hd
    | succ k =>
      rw [show 5 * (k + 1) + d = 5 * k + d + 1 + 4 by omega, getElem?_exportWords_zero_cons]
      exact digit_exportWords_succ hw hd

theorem separator_exportWords_zero {k : Nat} {ws : List Word} (hk : k + 1 < ws.length) :
    (exportWords 0 ws)[5 * k + 4]? = some (if (k + 1) % 8 = 0 then '\n' else ' ') := by
  cases ws with
  | nil => cases hk
  | cons v rest =>
    rw [getElem?_exportWords_zero_cons, separator_exportWords_succ (Nat.lt_of_succ_lt_succ hk), Nat.add_comm 1 k]

theorem length_exportText (s : State) : s.exportText.length = 319 := by
  obtain ⟨w, rest, h⟩ := List.exists_cons_of_length_eq_add_one (length_ramWordList s)
  have hrest := length_ramWordList s
  rw [h, List.length_cons] at hrest
  rw [State.exportText, h, length_exportWords_zero_cons]
  omega

theorem getElem?_ramWordList (s : State) {k : Nat} (hk : k < 64) : s.ramWordList[k]? = some (s.mem.read k) := by
  simp [State.ramWordList, Config.ramWords, hk]

/-- Settles O57: five characters a word, of which the first word has no separator. -/
theorem exportHasEightLines : Obligations.ExportHasEightLines := by
  refine fun s => ⟨length_exportText s, fun k hk d hd => ?_, fun k hk => ?_⟩
  · rw [State.exportText, digit_exportWords_zero (getElem?_ramWordList s hk) hd, getElem?_wordDigits _ hd]
  · exact separator_exportWords_zero (by rw [length_ramWordList]; omega)

end Sys2Proof.Machine
end

section
/-! The reset line on a powered machine (60_exceptions R235, R260) and the lines of a machine that is off (R231, R261). -/

open Sys2Proof.Certificates

namespace Sys2Proof.Machine

/-- A scan that resets a powered machine, with the run line at any level and the others low (R222, R229, R235). -/
theorem scanInputs_reset {s : State} (hon : s.on = true) (hprev : s.prev.on = true) (hrise : s.prev.reset = false)
    (run : Bool) (sw : Nat) :
    s.scanInputs { lines := { onLine with reset := true, run := run }, switches := sw } =
      { s.doReset with
        running := rise run s.prev.run, sw := wrapN sw, prev := { onLine with reset := true, run := run } } := by
  rw [scanInputs_of_powerHeld hon hprev rfl, State.scanPowered, scanReset_of_rise rfl (by exact hrise),
    scanRun_of_idle rfl rfl rfl rfl, scanPanel_of_low _ rfl rfl rfl rfl, scanSteps_of_no_rise rfl rfl]
  rfl

/-- On a machine already reset, its reset line latched high, the lines do what they do beside the reset edge (R229, R260). -/
theorem scanPowered_of_resetRise {s : State} {l : Lines} (hl : l.reset = true) (hprev : s.prev.reset = false) :
    (s.doReset.latchLines { s.prev with reset := true }).scanPowered l =
      (s.scanPowered l).latchLines { s.prev with reset := true } := by
  unfold State.scanPowered
  rw [scanReset_of_no_rise (rise_eq_false_of_held fun _ => rfl), scanReset_of_rise hl hprev, scanRun_latchLines l (by rfl),
    scanPanel_latchLines l (by simp) (by simp) (by simp) (by simp), scanSteps_latchLines l (by simp) (by simp)]

/-- Settles O42: the run line finds the reset machine idle, and a scan reads the reset line's last level for the reset alone. -/
theorem resetClearsPcAndStatus : Obligations.ResetClearsPcAndStatus := by
  refine fun s hon hprev hrise => ⟨fun run sw => ?_, fun l sw hl hreset => ?_⟩
  · rw [scanInputs_reset hon hprev hrise, ← wrapN_natCast]
    rfl
  · have hfirst : s.scanInputs { lines := { onLine with reset := true }, switches := sw } =
        { s.doReset with sw := wrapN sw, prev := { onLine with reset := true } } :=
      scanInputs_reset hon hprev hrise false sw
    rw [scanInputs_of_powerHeld hon hprev hl, hfirst, scanInputs_of_powerHeld (by exact hon) (by exact hprev) hl]
    exact (congrArg (State.latchLines · l.lines) (scanPowered_of_resetRise (s := s.latchSwitches l) hreset hrise)).symm

/-- A scan of a machine that is off, with the power line still low, is the two latches (R231, R240, R261). -/
theorem scanInputs_of_off {s : State} {l : Inputs} (hon : s.on = false) (hprev : s.prev.on = false)
    (hl : l.lines.on = false) : s.scanInputs l = (s.latchSwitches l).latchLines l.lines := by
  have hpower : (s.latchSwitches l).scanPower l.lines = s.latchSwitches l := by
    simp [State.scanPower, rise, fall, hprev, hl]
  rw [State.scanInputs, hpower, State.scanIfOn, if_neg (by simp [hon])]

/-- Settles O43: with no edge of the power line and the machine off, no line acts. -/
theorem linesIgnoredWhileOff : Obligations.LinesIgnoredWhileOff := by
  intro s l hon hprev hl
  rw [scanInputs_of_off hon hprev hl, ← wrapN_natCast]
  rfl

end Sys2Proof.Machine
end
